-- ==== Sys2Proof/Word.lean ====
section
/-! DEFINITION. The word types of the CT416: bytes of the register window, 16-bit readings and times, 32-bit
counters, raw converter codes (00_scope, Numbers and units; Readings). -/

namespace Sys2Proof

/-- A byte of the register window. -/
abbrev Byte := BitVec 8

/-- A 16-bit field: a time, a serial, a sequence number, a detail. -/
abbrev Half := BitVec 16

/-- A 32-bit field: a frame number or a time stamp. -/
abbrev Word := BitVec 32

/-- A reading, −32768 to 32767 in two's complement (00_scope, Readings; R172). -/
abbrev Reading := BitVec 16

/-- A raw code of a converter, 0 to 4095 (R94). -/
abbrev RawCode := BitVec 12

end Sys2Proof
end

