-- ==== Sys2Proof/Syntax.lean ====
section
/-! DEFINITION. The commands the part takes: one constructor for each row of spec/opcode_table.json. A host command
reads its argument from ARG0 and its tag from COMMAND tag (R174), so its constructor carries neither. -/

namespace Sys2Proof

/-- The steps of the CT416, each whole and indivisible (spec/95). -/
inductive Instr where
  /-- SCAN_NOW (R103). -/
  | scanNow
  /-- LOAD_SCAN_LIST (R99). -/
  | loadScanList
  /-- LOAD_CHANNEL (R96). -/
  | loadChannel
  /-- CLEAR_MINMAX (R119). -/
  | clearMinmax
  /-- LOAD_ENTRY (R12). -/
  | loadEntry
  /-- RELEASE (R43). -/
  | release
  /-- LOAD_SWITCH (R52). -/
  | loadSwitch
  /-- RESTART_SWITCH (R60). -/
  | restartSwitch
  /-- LOAD_SEQUENCE (R73). -/
  | loadSequence
  /-- POWER_UP (R84). -/
  | powerUp
  /-- POWER_DOWN (R86). -/
  | powerDown
  /-- DROP_CAPTURES (R134). -/
  | dropCaptures
  /-- CLEAR_LOCK (R144). `service` is the level of the SERVICE line at the take. -/
  | clearLock (service : Bool)
  /-- POP_EVENT (R160). -/
  | popEvent
  /-- CLEAR_LOSS (R161). -/
  | clearLoss
  /-- SOFT_RESET (R185). -/
  | softReset
  /-- BAD_COMMAND (R174). `code` is the byte written. -/
  | badCommand (code : Byte)
  /-- ALERT_LEVEL_WRITE (R164). -/
  | alertLevelWrite (value : Byte)
  /-- SCAN_MODE_WRITE (R101). -/
  | scanModeWrite (value : Byte)
  /-- FRAME_PERIOD_LOW_WRITE (R173). -/
  | framePeriodLowWrite (value : Byte)
  /-- FRAME_PERIOD_HIGH_WRITE (R102). -/
  | framePeriodHighWrite (value : Byte)
  /-- REGISTER_WRITE (R173). -/
  | registerWrite (value : Byte)
  /-- POINTER_WRITE (R168). -/
  | pointerWrite (value : Byte)
  /-- ADDRESS_BYTE (R167). `value` holds the 7-bit address in bits 7 to 1 and the direction in bit 0. -/
  | addressByte (value : Byte)
  /-- FIELD_SNAPSHOT (R170). `service` is the level of the SERVICE line when served (STATUS), `ack` whether the host acknowledges the byte. -/
  | fieldSnapshot (service ack : Bool)
  /-- TRANSFER_END (R170). -/
  | transferEnd
  /-- TRANSFER_TIMEOUT (R171). -/
  | transferTimeout
  /-- POWER_ON_RESET (R182). -/
  | powerOnReset
  /-- PIN_RESET (R182). -/
  | pinReset
  /-- RESET_END (R182). The operands are the levels of ADDR1 and ADDR0 and whether TRIP_N is low. -/
  | resetEnd (addr1 addr0 tripLow : Bool)
  /-- RESTORE_SLOT_SETTLED (R148). -/
  | restoreSlotSettled
  /-- RESTORE_COMPLETE (R183). -/
  | restoreComplete
  /-- TRIP_FILTER_ASSERT (R68). `lowSinceReset` says that the line has been low continuously since the last reset ended (R69). -/
  | tripFilterAssert (lowSinceReset : Bool)
  /-- TRIP_FILTER_RELEASE (R68). -/
  | tripFilterRelease
  /-- SYNC_EDGE (R103). -/
  | syncEdge
  /-- FRAME_TIMER_EXPIRY (R102). -/
  | frameTimerExpiry
  /-- SCAN_STEP_SAMPLE (R106). The operands are the codes the inputs of converters A, B and C give at this instant. -/
  | scanStepSample (a b c : RawCode)
  /-- SCAN_STEP_COMPLETE (R106). -/
  | scanStepComplete
  /-- DWELL_EXPIRY (R28). -/
  | dwellExpiry (n : Fin 32)
  /-- RECOVERY_EXPIRY (R40). -/
  | recoveryExpiry (n : Fin 32)
  /-- RAMP_TIMER_EXPIRY (R57). -/
  | rampTimerExpiry (s : Fin 8)
  /-- STEP_LIMIT_EXPIRY (R79). -/
  | stepLimitExpiry
  /-- DISCHARGE_TIMER_EXPIRY (R82). -/
  | dischargeTimerExpiry
  /-- SETTLE_TIMER_EXPIRY (R77). -/
  | settleTimerExpiry
  /-- PROGRAM_PHASE_END (R141). -/
  | programPhaseEnd
  /-- PROGRAM_COMPLETE (R141). -/
  | programComplete
  /-- ERASE_PHASE_END (R142). -/
  | erasePhaseEnd
  /-- ERASE_COMPLETE (R142). -/
  | eraseComplete
  /-- CLEANUP_ERASE_COMPLETE (R142). -/
  | cleanupEraseComplete
  /-- DATA_BYTE_SERVED (R169). `service` is the level of the SERVICE line when served (STATUS), `ack` whether the host acknowledges the byte. -/
  | dataByteServed (service ack : Bool)
  /-- TIME_BASE_TICK (R127). -/
  | timeBaseTick
  deriving DecidableEq, Repr

end Sys2Proof
end

