-- ==== Sys2Proof/Decode.lean ====
section
/-! DEFINITION. The decoder of the table's words, and the command codes. spec/opcode_table.json gives no row any bits
("fields" is empty and "fixed" absent in all 51), so no word spells a command. The byte a host writes to COMMAND code does
(R174). -/

namespace Sys2Proof

/-- The command that a word of `nbits` bits spells by the table's bits: none, since the table gives no row bits. -/
def decodeTableWord (_nbits _w : Nat) : Option Instr := none

/-- The step that a byte taken at COMMAND code is, with the SERVICE line at a level: the command of the code table, or
BAD_COMMAND for a byte that is none of the sixteen codes (R174). -/
def commandOfCode (service : Bool) (code : Byte) : Instr :=
  match code.toNat with
  | 0x10 => .scanNow
  | 0x11 => .loadScanList
  | 0x12 => .loadChannel
  | 0x13 => .clearMinmax
  | 0x20 => .loadEntry
  | 0x21 => .release
  | 0x30 => .loadSwitch
  | 0x31 => .restartSwitch
  | 0x40 => .loadSequence
  | 0x41 => .powerUp
  | 0x42 => .powerDown
  | 0x50 => .dropCaptures
  | 0x60 => .clearLock service
  | 0x70 => .popEvent
  | 0x71 => .clearLoss
  | 0xA5 => .softReset
  | _ => .badCommand code

/-- A byte is one of the sixteen command codes (R174). -/
def isCommandCode (code : Byte) : Bool := commandOfCode false code != .badCommand code

end Sys2Proof
end

