-- ==== Sys2Proof/Config.lean ====
section
/-! DEFINITION. What the manual leaves open: free values, each an opaque constant that no proof can see into,
applied to the counter `State.choice`, which every draw advances (assumption log 3 to 6 and 26). -/

namespace Sys2Proof

/-- DESIGN CHOICE (logs 3, 4, 26). Which of the messages that wait is taken next, and when those of an erase completion and of
a failed switch are, where the manual fixes no order (R25, R80, R115, R133, R142, R146). -/
opaque Config.freeOrder : Nat → Nat

/-- DESIGN CHOICE (log 5). What an interrupted write leaves on the fault memory medium, where R147 allows more than one
outcome. -/
opaque Config.freeMedium : Nat → Nat

/-- DESIGN CHOICE (log 6). The discharged indicator that a LOAD SWITCH gives a switch whose good channel byte names no
channel (R53, R64). -/
opaque Config.freeIndicator : Nat → Bool

/-- The ID part code at window address 0x00 (R172). -/
def Config.partCode : Byte := 0x16

/-- The ID revision at window address 0x01 of the part the manual describes (R172). -/
def Config.revision : Byte := 0x01

end Sys2Proof
end

