-- ==== Sys2Proof/Machine/State.lean ====
section
/-! DEFINITION. Everything the spec gives the CT416 to hold, as plain data, and its value right after reset. -/

namespace Sys2Proof.Machine

/-- A programmed millisecond timer: stopped, or running with the whole milliseconds left (R5, R55, R77; log 7). -/
abbrev Timer := Option Half

/-! ### Limit entries (R1 to R10, R24) -/

/-- An entry configuration, or the entry staging record: the fields of R2 as the bytes of R177. The staging record
takes any byte, and a disabled configuration in force keeps what was staged (R13), so the fields are bytes. -/
structure EntryConfig where
  enabled : Byte
  source : Byte
  valueKind : Byte
  direction : Byte
  trip : Reading
  recovery : Reading
  dwell : Half
  recoveryMode : Byte
  recoveryTime : Half
  tier : Byte
  mask : Byte
  abort : Byte
  eventClass : Byte
  transients : Byte
  deratePresent : Byte
  derateRef : Byte
  derateDelta : Reading
  companionCount : Byte
  companion0 : Byte
  companion1 : Byte
  companion2 : Byte
  deriving DecidableEq, Repr

/-- The qualification states (R21). -/
inductive EntryState where
  | off | idle | pending | asserted | recovering | releasable | locked
  deriving DecidableEq, Repr

/-- The figures of a PENDING entry's latest evaluation (R24). -/
structure DwellRecord where
  value : Reading
  threshold : Reading
  frame : Word
  deriving DecidableEq, Repr

/-- A limit entry: its configuration in force, its run state (R9) and its dwell record (R24). `pendingLoad` is both
the pending configuration and, while present, the load-pending mark (R1). -/
structure Entry where
  config : EntryConfig
  state : EntryState
  dwellTimer : Timer
  recoveryTimer : Timer
  assertions : Byte
  transients : Byte
  lastCapture : Option Byte
  pendingLoad : Option EntryConfig
  dwellRecord : Option DwellRecord
  deriving DecidableEq, Repr

/-! ### Switches (R50 to R70) -/

/-- A switch configuration, or the switch staging record: the fields of R51 as the bytes of R180. -/
structure SwitchConfig where
  enabled : Byte
  goodChannel : Byte
  goodThreshold : Reading
  offThreshold : Reading
  rampTimeout : Half
  dischargeTimeout : Half
  restartMode : Byte
  tripResponse : Byte
  deriving DecidableEq, Repr

/-- The switch states (R55). -/
inductive SwitchState where
  | off | ramping | on | blocked | tripped | failed
  deriving DecidableEq, Repr

/-- A hold set: bit i marks holder i in the order E0 to E31, K0 to K3, X (R65). -/
abbrev HoldSet := BitVec 37

/-- A switch (R50). -/
structure Switch where
  config : SwitchConfig
  demand : Bool
  state : SwitchState
  rampTimer : Timer
  holds : HoldSet
  discharged : Bool
  deriving DecidableEq, Repr

/-- The trip-line filter: its seen state (R68), and whether TRIP_N was low when reset ended with no change of the seen
state since (R69). -/
structure TripFilter where
  seen : Bool
  lowAtResetEnd : Bool
  deriving DecidableEq, Repr

/-! ### Sequencer (R71 to R93) -/

/-- A step of a list in force (R72). -/
structure SeqStep where
  switch : Fin 8
  settle : Half
  limit : Half
  deriving DecidableEq, Repr

/-- A staged step: its switch number may name no switch (R72). -/
structure StagedSeqStep where
  switch : Byte
  settle : Half
  limit : Half
  deriving DecidableEq, Repr

/-- The sequence staging record, page 0x43 (R71, R72). -/
structure SeqStaging where
  upLength : Byte
  downLength : Byte
  up : Vector StagedSeqStep 16
  down : Vector StagedSeqStep 16
  deriving DecidableEq, Repr

/-- The phase of a step (R77). -/
inductive StepPhase where
  | waiting | settling
  deriving DecidableEq, Repr

/-- The cause of a power-down (R71, R87). -/
inductive DownCause where
  | host
  | entry (n : Fin 32)
  | ramp (s : Fin 8)
  | timeout (step : Nat)
  deriving DecidableEq, Repr

/-- The sequencer states (R75), each with what it holds: the step index and phase in POWERING_UP and POWERING_DOWN, the
cause in POWERING_DOWN (R71). -/
inductive SeqState where
  | notReady
  | standby
  | poweringUp (index : Nat) (phase : StepPhase)
  | running
  | poweringDown (index : Nat) (phase : StepPhase) (cause : DownCause)
  deriving DecidableEq, Repr

/-- The last outcome (R92). -/
inductive LastOutcome where
  | none | upDone | downHost
  | abortEntry (n : Fin 32)
  | abortRamp (s : Fin 8)
  | abortTimeout (step : Nat)
  deriving DecidableEq, Repr

/-- The Sequencer (R71). `failed` names the switches that have entered FAILED and whose message it has not taken yet, oldest
first (R63, R80, R89; log 26). -/
structure Sequencer where
  upList : List SeqStep
  downList : List SeqStep
  staging : SeqStaging
  state : SeqState
  stepLimit : Timer
  discharge : Timer
  settle : Timer
  outcome : LastOutcome
  failed : List (Fin 8)
  deriving DecidableEq, Repr

/-! ### Scan Unit (R94 to R112) -/

/-- The scan modes (R101). -/
inductive ScanMode where
  | stopped | timed | sync
  deriving DecidableEq, Repr

/-- The kinds of a channel (R95). -/
inductive ChannelKind where
  | voltage | current | temperature
  deriving DecidableEq, Repr

/-- A channel configuration record in force or pending (R95). -/
structure ChannelConfig where
  kind : ChannelKind
  gain : Half
  offset : Reading
  weight : Fin 8
  deriving DecidableEq, Repr

/-- The channel staging record, page 0x21 (R95, R178). -/
structure ChannelStaging where
  kind : Byte
  gain : Half
  offset : Reading
  weight : Byte
  deriving DecidableEq, Repr

/-- A step of a Scan List: the channel of each converter, and the settle time in 2 µs units (R98). -/
structure ScanStep where
  a : Option (Fin 18)
  b : Option (Fin 18)
  c : Option (Fin 18)
  settle : Fin 16
  deriving DecidableEq, Repr

/-- A staged step of page 0x44; 0xFF marks an absent converter (R98, R180). -/
structure StagedScanStep where
  a : Byte
  b : Byte
  c : Byte
  settle : Byte
  deriving DecidableEq, Repr

/-- The list staging record, page 0x44 (R98). -/
structure ScanStaging where
  length : Byte
  steps : Vector StagedScanStep 12
  deriving DecidableEq, Repr

/-- The codes of one step, taken together at the end of its settle time: one for each converter with a channel
(R94, R106). -/
structure StepCodes where
  a : RawCode
  b : RawCode
  c : RawCode
  deriving DecidableEq, Repr

/-- The Scan Unit (R95 to R105). `sampled` is absent while the step in progress settles and holds the codes while it
converts (R106). A pending load present is its load-pending mark (R97, R100). `frameTimer` is, while the timer runs, the
0.1 ms units from the last tick of the time base to its next expiry, negative where ticks have passed it (R102; log 8). -/
structure ScanUnit where
  mode : ScanMode
  scanning : Bool
  stepIndex : Nat
  sampled : Option StepCodes
  pendingTrigger : Bool
  frameTimer : Option Int
  period : Half
  frameNumber : Word
  list : List ScanStep
  staging : ScanStaging
  pendingList : Option (List ScanStep)
  channels : Vector ChannelConfig 18
  channelStaging : ChannelStaging
  pendingChannel : Option (Fin 18 × ChannelConfig)
  deriving DecidableEq, Repr

/-! ### Measurement Table (R113 to R126) -/

/-- A measurement record (R113). `stale` belongs to derived records. -/
structure MeasRecord where
  valid : Bool
  latest : Reading
  average : Reading
  minimum : Reading
  maximum : Reading
  sampleFrame : Word
  clipped : Bool
  count : Half
  stale : Bool
  deriving DecidableEq, Repr

/-- The operations of a derived channel (R121). -/
inductive DerivedOp where
  | none | sum | difference | product | maxOf | minOf
  deriving DecidableEq, Repr

/-- A derived configuration as written on page 0x52 (R121, R178). -/
structure DerivedWritten where
  op : Byte
  a : Byte
  b : Byte
  weight : Byte
  deriving DecidableEq, Repr

/-- A derived configuration in force. Its operands and weight are bytes, since NONE is brought into force with whatever
was written (R121). -/
structure DerivedConfig where
  op : DerivedOp
  a : Byte
  b : Byte
  weight : Byte
  deriving DecidableEq, Repr

/-! ### Capture Store (R127 to R137) -/

/-- A companion of a capture: a channel and its reading (R127). -/
structure Companion where
  channel : Fin 18
  reading : Reading
  deriving DecidableEq, Repr

/-- A capture record (R127). -/
structure CaptureRecord where
  id : Byte
  entry : Fin 32
  timestamp : Word
  frame : Word
  trigger : Reading
  threshold : Reading
  companions : List Companion
  pinned : Bool
  deriving DecidableEq, Repr

/-- The Capture Store: the records newest first, so that a record's place is its age index (R127). -/
structure CaptureStore where
  records : List CaptureRecord
  nextId : Byte
  deriving DecidableEq, Repr

/-! ### Fault Memory (R138 to R152) -/

/-- The header of a lock record (R138). -/
structure LockHeader where
  entry : Fin 32
  mask : Byte
  serial : Half
  deriving DecidableEq, Repr

/-- The body of a lock record (R138). -/
structure LockBody where
  captureId : Byte
  trigger : Reading
  threshold : Reading
  companions : List Companion
  deriving DecidableEq, Repr

/-- An area of the medium: blank, written in part (its check fails), or whole (its check passes) (R138, R147;
log 10). -/
inductive Area (α : Type) where
  | blank
  | partly
  | whole (fields : α)
  deriving DecidableEq, Repr

/-- The three areas of a slot on the medium (R138). -/
structure SlotMedium where
  header : Area LockHeader
  body : Area LockBody
  mark : Area Unit
  deriving DecidableEq, Repr

/-- The serial word on the medium: a value whose check passes, or a failing check (R138, R147). -/
inductive SerialWord where
  | value (serial : Half)
  | failing
  deriving DecidableEq, Repr

/-- The controller's view of a slot: its state with what that state holds (R139). A WRITING slot's serial is absent
until its serial phase begins (R141, R150). -/
inductive SlotView where
  | empty (cleanup : Bool)
  | writing (entry : Fin 32) (mask : Byte) (serial : Option Half) (body : LockBody)
  | valid (header : LockHeader) (body : Option LockBody)
  | erasing (header : LockHeader) (body : Option LockBody)
  deriving DecidableEq, Repr

/-- The kinds of a work list item (R140). -/
inductive WorkKind where
  | program | erase | cleanup | cleanupThenProgram
  deriving DecidableEq, Repr

/-- An item of the work list (R140). -/
structure WorkItem where
  kind : WorkKind
  slot : Fin 4
  deriving DecidableEq, Repr

/-- The phases of a program (R141) and of an erase (R142). -/
inductive OpPhase where
  | serial | header | body | mark | clear | unmark
  deriving DecidableEq, Repr

/-- A capture copy that waits for the lock request of its entry (R132, R143). -/
structure LockCopy where
  entry : Fin 32
  body : LockBody
  deriving DecidableEq, Repr

/-- A message of an erase completion that its block has not taken yet: to the Qualification Engine that the lock of an entry
has been cleared, or to the Capture Store to unpin its record (R46, R133, R142, R146; log 4). -/
inductive ClearMessage where
  | engine (n : Fin 32)
  | store (n : Fin 32)
  deriving DecidableEq, Repr

/-- Fault Memory: the medium, the volatile view, the work list head first with the phase of the item in flight, the
copies held, the next slot of a restore in progress, and the messages sent and not taken yet, oldest first (R138 to R143,
R146, R148, R183). -/
structure FaultMemory where
  medium : Vector SlotMedium 4
  serialWord : SerialWord
  slots : Vector SlotView 4
  work : List WorkItem
  phase : Option OpPhase
  copies : List LockCopy
  restore : Option Nat
  sent : List ClearMessage
  deriving DecidableEq, Repr

/-! ### Event Queue (R153 to R166) -/

/-- The twenty kinds of event (R154). -/
inductive EventKind where
  | entryAsserted | entryLocked | entryRecovered | entryTransient | loadDone | loadAbandoned
  | switchRampFail | tripLineAsserted | tripLineReleased
  | seqUpDone | seqDownDone | seqStepTimeout | dischargeTimeout
  | scanOverrun
  | lockStored | lockNotStored | lockCleared | lockRestored | recordDiscarded
  | deviceReady
  deriving DecidableEq, Repr

/-- An event record (R153). -/
structure EventRecord where
  seq : Half
  timestamp : Word
  kind : EventKind
  source : Option Nat
  detail : Half
  cls : Fin 4
  lossBefore : Bool
  deriving DecidableEq, Repr

/-- The Event Queue, head first, with the ALERT_N output (R153, R163). -/
structure EventQueue where
  records : List EventRecord
  nextSeq : Half
  lossCount : Byte
  lossMark : Bool
  alertLevel : Fin 5
  alert : Bool
  deriving DecidableEq, Repr

/-! ### Host Port (R167 to R181) -/

/-- Where the port stands in a transfer: not taking part and waiting for a start condition, in a write transfer before
its pointer byte, in a write transfer after it, in a read transfer, or in a read transfer that the host has ended by
not acknowledging (R167 to R171). -/
inductive PortPhase where
  | waiting | pointerNext | writing | reading | readEnded
  deriving DecidableEq, Repr

/-- The result codes (R174). -/
inductive ResultCode where
  | noCommand | ok | accepted | badCommand | badArgument | notReady | badEntry | loadPending | entryBusy
  | entryLockHeld | notRecovered | notAsserted | switchBusy | switchState | seqBusy | seqIdle | alreadyUp
  | notService | noLock | lockBusy | queueEmpty
  deriving DecidableEq, Repr

/-- RESULT: code, tag and detail of the last command taken (R174). -/
structure ResultRegister where
  code : ResultCode
  tag : BitVec 4
  detail : Byte
  deriving DecidableEq, Repr

/-- An open snapshot: the window address of the field's lowest byte and the field's bytes (R170). -/
structure Snapshot where
  base : Byte
  bytes : List Byte
  deriving DecidableEq, Repr

/-- The Host Port (R167 to R174, R181). `served` is the byte last put on the data line, `acked` whether the port
acknowledged the last byte the host sent. -/
structure Port where
  phase : PortPhase
  address : BitVec 7
  pointer : Byte
  page : Byte
  part : BitVec 2
  arg0 : Byte
  arg1 : Byte
  arg2 : Byte
  arg3 : Byte
  tag : BitVec 4
  result : ResultRegister
  heldLow : Option Byte
  snapshot : Option Snapshot
  served : Byte
  acked : Bool
  deriving DecidableEq, Repr

/-! ### The machine -/

/-- The whole part, with the queue of the commands that wait and the counter of free values drawn (`choice`, the
model's own field). -/
structure State where
  inReset : Bool
  ready : Bool
  timestamp : Word
  entries : Vector Entry 32
  entryStaging : EntryConfig
  switches : Vector Switch 8
  switchStaging : SwitchConfig
  trip : TripFilter
  seq : Sequencer
  scan : ScanUnit
  records : Vector MeasRecord 22
  derivedWritten : Vector DerivedWritten 4
  derivedInForce : Vector DerivedConfig 4
  captures : CaptureStore
  fault : FaultMemory
  queue : EventQueue
  port : Port
  choice : Nat
  pending : List Instr
  deriving DecidableEq, Repr

/-- No command of the CT416 stops the part with a fault: every command is accepted or refused with a result code
(R174), and every other step is an event the part takes. So there is no reason to name. -/
inductive Fault where
  deriving DecidableEq, Repr

/-- Why the model gives a command no meaning. -/
inductive Refusal where
  /-- Raised by `exec` alone, for a command not modelled yet; safe, since nothing is claimed of it. No arm raises it. -/
  | notModelled (mnemonic : String)
  deriving DecidableEq, Repr

/-! ### Reset values -/

/-- The default entry configuration: every byte 0 (R2, R11, R181). -/
def EntryConfig.default : EntryConfig where
  enabled := 0
  source := 0
  valueKind := 0
  direction := 0
  trip := 0
  recovery := 0
  dwell := 0
  recoveryMode := 0
  recoveryTime := 0
  tier := 0
  mask := 0
  abort := 0
  eventClass := 0
  transients := 0
  deratePresent := 0
  derateRef := 0
  derateDelta := 0
  companionCount := 0
  companion0 := 0
  companion1 := 0
  companion2 := 0

/-- An entry after every reset (R9, R20). -/
def Entry.default : Entry where
  config := EntryConfig.default
  state := .off
  dwellTimer := none
  recoveryTimer := none
  assertions := 0
  transients := 0
  lastCapture := none
  pendingLoad := none
  dwellRecord := none

/-- The default switch configuration (R51, R70). -/
def SwitchConfig.default : SwitchConfig where
  enabled := 0
  goodChannel := 0
  goodThreshold := 0
  offThreshold := 0
  rampTimeout := 0
  dischargeTimeout := 0
  restartMode := 0
  tripResponse := 0

/-- A switch after power-on and pin reset (R70). -/
def Switch.default : Switch where
  config := SwitchConfig.default
  demand := false
  state := .off
  rampTimer := none
  holds := 0
  discharged := false

/-- A sequence step of zeros (R72). -/
def StagedSeqStep.default : StagedSeqStep where
  switch := 0
  settle := 0
  limit := 0

/-- The sequence staging record after power-on and pin reset (R72). -/
def SeqStaging.default : SeqStaging where
  upLength := 0
  downLength := 0
  up := Vector.replicate 16 StagedSeqStep.default
  down := Vector.replicate 16 StagedSeqStep.default

/-- The Sequencer after power-on and pin reset (R93). -/
def Sequencer.default : Sequencer where
  upList := []
  downList := []
  staging := SeqStaging.default
  state := .notReady
  stepLimit := none
  discharge := none
  settle := none
  outcome := .none
  failed := []

/-- The channel record of C0 to C15 and C17 after power-on and pin reset (R111). -/
def ChannelConfig.voltage : ChannelConfig where
  kind := .voltage
  gain := 4096
  offset := 0
  weight := 0

/-- The channel staging record after power-on and pin reset (R111). -/
def ChannelStaging.default : ChannelStaging where
  kind := 0
  gain := 0
  offset := 0
  weight := 0

/-- The Scan List after every reset: one step, C17 on converter C, settle 0 (R111, R112). -/
def resetScanList : List ScanStep :=
  [{ a := none, b := none, c := some 17, settle := 0 }]

/-- A staged scan step of zeros (R111). -/
def StagedScanStep.default : StagedScanStep where
  a := 0
  b := 0
  c := 0
  settle := 0

/-- The Scan Unit after power-on and pin reset (R111). -/
def ScanUnit.default : ScanUnit where
  mode := .stopped
  scanning := false
  stepIndex := 0
  sampled := none
  pendingTrigger := false
  frameTimer := none
  period := 100
  frameNumber := 0
  list := resetScanList
  staging := { length := 0, steps := Vector.replicate 12 StagedScanStep.default }
  pendingList := none
  channels := (Vector.replicate 18 ChannelConfig.voltage).set 16 { ChannelConfig.voltage with kind := .temperature }
  channelStaging := ChannelStaging.default
  pendingChannel := none

/-- A measurement record after power-on and pin reset (R125). -/
def MeasRecord.default : MeasRecord where
  valid := false
  latest := 0
  average := 0
  minimum := 0
  maximum := 0
  sampleFrame := 0
  clipped := false
  count := 0
  stale := false

/-- A written derived configuration of zeros (R125). -/
def DerivedWritten.default : DerivedWritten where
  op := 0
  a := 0
  b := 0
  weight := 0

/-- The default derived configuration (R121). -/
def DerivedConfig.default : DerivedConfig where
  op := .none
  a := 0
  b := 0
  weight := 0

/-- The empty Capture Store (R137). -/
def CaptureStore.default : CaptureStore where
  records := []
  nextId := 0

/-- A blank slot on the medium (R138). -/
def SlotMedium.blank : SlotMedium where
  header := .blank
  body := .blank
  mark := .blank

/-- Fault Memory as a reset leaves it, over a medium that it does not change: the volatile view and the work list are
empty and the restore has not begun (R147, R148, R152). DESIGN CHOICE (log 24): until the restore settles a slot, its view
is EMPTY without cleanup mark; R148 and R152 say only what the restore leaves. -/
def FaultMemory.afterReset (medium : Vector SlotMedium 4) (serialWord : SerialWord) : FaultMemory where
  medium := medium
  serialWord := serialWord
  slots := Vector.replicate 4 (.empty false)
  work := []
  phase := none
  copies := []
  restore := none
  sent := []

/-- The empty Event Queue (R166). -/
def EventQueue.default : EventQueue where
  records := []
  nextSeq := 0
  lossCount := 0
  lossMark := false
  alertLevel := 0
  alert := false

/-- The Host Port after power-on and pin reset (R181), answering to 0x58 until RESET_END samples the pins (log 1). -/
def Port.default : Port where
  phase := .waiting
  address := 0x58
  pointer := 0
  page := 0
  part := 0
  arg0 := 0
  arg1 := 0
  arg2 := 0
  arg3 := 0
  tag := 0
  result := { code := .noCommand, tag := 0, detail := 0 }
  heldLow := none
  snapshot := none
  served := 0
  acked := false

/-- The part held in reset over a given medium: every volatile state at its reset value (R182). -/
def State.heldInReset (medium : Vector SlotMedium 4) (serialWord : SerialWord) : State where
  inReset := true
  ready := false
  timestamp := 0
  entries := Vector.replicate 32 Entry.default
  entryStaging := EntryConfig.default
  switches := Vector.replicate 8 Switch.default
  switchStaging := SwitchConfig.default
  trip := { seen := false, lowAtResetEnd := false }
  seq := Sequencer.default
  scan := ScanUnit.default
  records := Vector.replicate 22 MeasRecord.default
  derivedWritten := Vector.replicate 4 DerivedWritten.default
  derivedInForce := Vector.replicate 4 DerivedConfig.default
  captures := CaptureStore.default
  fault := FaultMemory.afterReset medium serialWord
  queue := EventQueue.default
  port := Port.default
  choice := 0
  pending := []

/-- The machine right after reset (R182): a part as manufactured (blank medium, serial word 0: R138), its reset just
ended with ADDR1 and ADDR0 low and TRIP_N high, and the restore about to settle slot 0 (log 1). -/
def State.reset : State :=
  { State.heldInReset (Vector.replicate 4 SlotMedium.blank) (.value 0) with
    inReset := false
    fault := { FaultMemory.afterReset (Vector.replicate 4 SlotMedium.blank) (.value 0) with restore := some 0 } }

end Sys2Proof.Machine
end

