-- ==== Sys2Proof/Machine/Ops.lean ====
section
/-! DEFINITION. The named operations every block uses: bytes of fields, numbers from argument bytes, saturation, the
updates of one block of `State`, free values, and what a command does at the port. -/

namespace Sys2Proof.Machine

/-! ### Bytes and numbers -/

/-- Byte `i` of a value, byte 0 the less significant (00_scope, Numbers and units). -/
def byteOf {w : Nat} (x : BitVec w) (i : Nat) : Byte := x.extractLsb' (8 * i) 8

/-- A 16-bit field with its low byte replaced (R170: multi-byte fields are written byte by byte). -/
def setLow (x : Half) (b : Byte) : Half := (byteOf x 1) ++ b

/-- A 16-bit field with its high byte replaced. -/
def setHigh (x : Half) (b : Byte) : Half := b ++ (byteOf x 0)

/-- The number a byte gives below `n`, or none where it is beyond the range (R174: BAD_ARGUMENT). -/
def numberBelow (n : Nat) (b : Byte) : Option (Fin n) :=
  if h : b.toNat < n then some ⟨b.toNat, h⟩ else none

/-- One more than an 8-bit count, which stops at 255 (00_scope: a counter that saturates). -/
def satSucc8 (c : Byte) : Byte := if c = 255 then 255 else c + 1

/-- One more than a 16-bit count, which stops at 65535 (R115). -/
def satSucc16 (c : Half) : Half := if c = 65535 then 65535 else c + 1

/-- A value saturated to the reading range (00_scope; R7, R114, R122). -/
def saturate (x : Int) : Reading :=
  if x < -32768 then BitVec.ofInt 16 (-32768) else if 32767 < x then BitVec.ofInt 16 32767 else BitVec.ofInt 16 x

/-- Whether saturation changes a value: the sample is then clipped (R114, R122). -/
def isClipped (x : Int) : Bool := x < -32768 || 32767 < x

/-- A list without its last element that satisfies `p`. -/
def eraseLast {α : Type} (p : α → Bool) (l : List α) : List α := (l.reverse.eraseP p).reverse

/-- One millisecond of the time base off a running timer (R5; log 7). -/
def Timer.tick (t : Timer) : Timer := t.map fun left => if left = 0 then 0 else left - 1

/-- A running timer all of whose milliseconds are counted: its expiry may be taken (R5, R55, R77; log 7). -/
def Timer.due (t : Timer) : Bool := t == some 0

/-- The time left as the host reads it: 0 when stopped, at least 1 while it runs (R177, R180). -/
def Timer.shown (t : Timer) : Half :=
  match t with
  | none => 0
  | some left => if left = 0 then 1 else left

/-! ### Updates of one block -/

/-- Entry `n` changed by `f`. -/
def State.modEntry (s : State) (n : Fin 32) (f : Entry → Entry) : State :=
  { s with entries := s.entries.set n (f s.entries[n]) }

/-- Switch `i` changed by `f`. -/
def State.modSwitch (s : State) (i : Fin 8) (f : Switch → Switch) : State :=
  { s with switches := s.switches.set i (f s.switches[i]) }

/-- Record `r` changed by `f`. -/
def State.modRecord (s : State) (r : Fin 22) (f : MeasRecord → MeasRecord) : State :=
  { s with records := s.records.set r (f s.records[r]) }

/-- The Sequencer changed by `f`. -/
def State.modSeq (s : State) (f : Sequencer → Sequencer) : State := { s with seq := f s.seq }

/-- The Scan Unit changed by `f`. -/
def State.modScan (s : State) (f : ScanUnit → ScanUnit) : State := { s with scan := f s.scan }

/-- Fault Memory changed by `f`. -/
def State.modFault (s : State) (f : FaultMemory → FaultMemory) : State := { s with fault := f s.fault }

/-- The Host Port changed by `f`. -/
def State.modPort (s : State) (f : Port → Port) : State := { s with port := f s.port }

/-- The record of a channel among the 22 sources (R113). -/
def channelSource (c : Fin 18) : Fin 22 := ⟨c.val, by omega⟩

/-- The record of a derived channel among the 22 sources (R113). -/
def derivedSource (d : Fin 4) : Fin 22 := ⟨18 + d.val, by omega⟩

/-! ### Free values -/

/-- A free value below `n + 1`, drawn from `f` at the counter, which advances (logs 3 to 6 and 26). -/
def State.draw (s : State) (f : Nat → Nat) (n : Nat) : Fin (n + 1) × State :=
  (⟨f s.choice % (n + 1), Nat.mod_lt _ (Nat.succ_pos n)⟩, { s with choice := s.choice + 1 })

/-! ### Commands at the port -/

/-- A data byte is taken at address `a`: the part is not held in reset, the port is in a write transfer past its pointer
byte, and the pointer stands at `a` (R168, R182). -/
def State.writesAt (s : State) (a : Byte) : Bool :=
  !s.inReset && s.port.phase == .writing && s.port.pointer == a

/-- After a data byte the port acknowledges it and the pointer advances by one, wrapping (R167, R168). -/
def State.byteTaken (s : State) : State :=
  s.modPort fun p => { p with pointer := p.pointer + 1, acked := true }

/-- What a command's own rule answers: the state its work leaves, the result code and the detail byte (R174). -/
structure Reply where
  state : State
  code : ResultCode
  detail : Byte

/-- A refused command changes no state (R174). -/
def State.refuse (s : State) (code : ResultCode) (detail : Byte := 0) : Reply := ⟨s, code, detail⟩

/-- RESULT takes the code, the tag of COMMAND tag and the detail (R174 step 4). -/
def State.setResult (s : State) (code : ResultCode) (detail : Byte) : State :=
  s.modPort fun p => { p with result := { code := code, tag := p.tag, detail := detail } }

/-- A command code written to COMMAND code: the command's own rule acts, RESULT is written, and the byte is
acknowledged (R168, R174). Where no byte is being taken at COMMAND code there is no such step, and nothing changes
(log 11). -/
def takeCommand (body : State → Reply) (s : State) : State :=
  if s.writesAt 0x09 then
    let r := body s
    (r.state.setResult r.code r.detail).byteTaken
  else s

/-- A data byte taken at register `a` that is no command: `f` is its effect at the register's owner (R168; log 11). -/
def takeWrite (a : Byte) (f : State → State) (s : State) : State :=
  if s.writesAt a then (f s).byteTaken else s

/-- The step of a block other than the port: nothing happens while reset is asserted (R182). -/
def awake (f : State → State) (s : State) : State := if s.inReset then s else f s

end Sys2Proof.Machine
end

