-- ==== Sys2Proof/Machine/Operands.lean ====
section
/-! DEFINITION. The staged records as bytes and as values: where each field stands on its page (R177, R178, R180), what a
byte means, and the validation of each load (R13, R52, R73, R96, R99, R121). -/

namespace Sys2Proof.Machine

/-! ### The entry configuration (R2, R13, R177) -/

/-- The byte at an offset of an entry configuration; 0 where the layout gives no field (R177, R169). -/
def EntryConfig.byte (c : EntryConfig) (off : Nat) : Byte :=
  match off with
  | 0x00 => c.enabled
  | 0x01 => c.source
  | 0x02 => c.valueKind
  | 0x03 => c.direction
  | 0x04 => byteOf c.trip 0
  | 0x05 => byteOf c.trip 1
  | 0x06 => byteOf c.recovery 0
  | 0x07 => byteOf c.recovery 1
  | 0x08 => byteOf c.dwell 0
  | 0x09 => byteOf c.dwell 1
  | 0x0A => c.recoveryMode
  | 0x0C => byteOf c.recoveryTime 0
  | 0x0D => byteOf c.recoveryTime 1
  | 0x0E => c.tier
  | 0x0F => c.mask
  | 0x10 => c.abort
  | 0x11 => c.eventClass
  | 0x12 => c.transients
  | 0x13 => c.deratePresent
  | 0x14 => c.derateRef
  | 0x16 => byteOf c.derateDelta 0
  | 0x17 => byteOf c.derateDelta 1
  | 0x18 => c.companionCount
  | 0x19 => c.companion0
  | 0x1A => c.companion1
  | 0x1B => c.companion2
  | _ => 0

/-- A byte written to the entry staging page; ignored where the layout gives no field (R176, R177). -/
def EntryConfig.setByte (c : EntryConfig) (off : Nat) (b : Byte) : EntryConfig :=
  match off with
  | 0x00 => { c with enabled := b }
  | 0x01 => { c with source := b }
  | 0x02 => { c with valueKind := b }
  | 0x03 => { c with direction := b }
  | 0x04 => { c with trip := setLow c.trip b }
  | 0x05 => { c with trip := setHigh c.trip b }
  | 0x06 => { c with recovery := setLow c.recovery b }
  | 0x07 => { c with recovery := setHigh c.recovery b }
  | 0x08 => { c with dwell := setLow c.dwell b }
  | 0x09 => { c with dwell := setHigh c.dwell b }
  | 0x0A => { c with recoveryMode := b }
  | 0x0C => { c with recoveryTime := setLow c.recoveryTime b }
  | 0x0D => { c with recoveryTime := setHigh c.recoveryTime b }
  | 0x0E => { c with tier := b }
  | 0x0F => { c with mask := b }
  | 0x10 => { c with abort := b }
  | 0x11 => { c with eventClass := b }
  | 0x12 => { c with transients := b }
  | 0x13 => { c with deratePresent := b }
  | 0x14 => { c with derateRef := b }
  | 0x16 => { c with derateDelta := setLow c.derateDelta b }
  | 0x17 => { c with derateDelta := setHigh c.derateDelta b }
  | 0x18 => { c with companionCount := b }
  | 0x19 => { c with companion0 := b }
  | 0x1A => { c with companion1 := b }
  | 0x1B => { c with companion2 := b }
  | _ => c

/-- Field 1: 0 no, any other value yes (R177). -/
def EntryConfig.isEnabled (c : EntryConfig) : Bool := c.enabled != 0

/-- Field 2 as a record number (R2, R113). -/
def EntryConfig.sourceOf (c : EntryConfig) : Option (Fin 22) := numberBelow 22 c.source

/-- Field 3 is AVERAGE (R177). -/
def EntryConfig.isAverage (c : EntryConfig) : Bool := c.valueKind == 1

/-- Field 4 is BELOW (R177). -/
def EntryConfig.isBelow (c : EntryConfig) : Bool := c.direction == 1

/-- Field 8 is HOST (R177). -/
def EntryConfig.isHostMode (c : EntryConfig) : Bool := c.recoveryMode == 1

/-- Field 10 is NOTE (R177). -/
def EntryConfig.isNote (c : EntryConfig) : Bool := c.tier == 0

/-- Field 10 is LOCK (R177). -/
def EntryConfig.isLock (c : EntryConfig) : Bool := c.tier == 2

/-- Field 12: 0 no, any other value yes (R177). -/
def EntryConfig.isAbort (c : EntryConfig) : Bool := c.abort != 0

/-- Field 13 as a class (R6, R177). -/
def EntryConfig.classOf (c : EntryConfig) : Fin 4 := ⟨c.eventClass.toNat % 4, Nat.mod_lt _ (by decide)⟩

/-- Field 14: 0 no, any other value yes (R177). -/
def EntryConfig.isReporting (c : EntryConfig) : Bool := c.transients != 0

/-- Field 15: the reference entry where the link is present (R7, R177). -/
def EntryConfig.reference (c : EntryConfig) : Option (Fin 32) :=
  if c.deratePresent = 0 then none else numberBelow 32 c.derateRef

/-- Field 16: the companion bytes listed, in list order, three at most (R6, R177). -/
def EntryConfig.companionBytes (c : EntryConfig) : List Byte :=
  [c.companion0, c.companion1, c.companion2].take c.companionCount.toNat

/-- Field 16: the companion channels (R6). -/
def EntryConfig.companions (c : EntryConfig) : List (Fin 18) :=
  c.companionBytes.filterMap (numberBelow 18)

/-- The numbers of the fields of an enabled staged record that fail, for entry `n` (R13). `refOff` says whether an entry
is in OFF at the take. -/
def EntryConfig.failingFields (c : EntryConfig) (n : Fin 32) (refOff : Fin 32 → Bool) : List Nat :=
  [(2, (numberBelow 22 c.source).isNone),
   (3, decide (1 < c.valueKind.toNat)),
   (4, decide (1 < c.direction.toNat)),
   (6, (c.direction == 0 && decide (c.trip.toInt ≤ c.recovery.toInt)) ||
       (c.direction == 1 && decide (c.recovery.toInt ≤ c.trip.toInt))),
   (8, decide (1 < c.recoveryMode.toNat)),
   (10, decide (2 < c.tier.toNat)),
   (11, (c.isNote && c.mask != 0) || (c.isLock && c.mask == 0)),
   (12, c.isNote && c.isAbort),
   (13, decide (3 < c.eventClass.toNat)),
   (15, c.deratePresent != 0 &&
       (match numberBelow 32 c.derateRef with
        | none => true
        | some r => r == n || refOff r)),
   (16, decide (3 < c.companionCount.toNat) || c.companionBytes.any (fun b => (numberBelow 18 b).isNone) ||
       !(decide c.companionBytes.Nodup))].filterMap fun x => if x.2 then some x.1 else none

/-- The first failing field of a staged record, or none where it passes: a disabled record passes whatever it holds
(R13). -/
def EntryConfig.firstFailing (c : EntryConfig) (n : Fin 32) (refOff : Fin 32 → Bool) : Option Nat :=
  if c.isEnabled then (c.failingFields n refOff).head? else none

/-! ### The switch configuration (R51, R52, R180) -/

/-- The byte at an offset of a switch configuration (R180). -/
def SwitchConfig.byte (c : SwitchConfig) (off : Nat) : Byte :=
  match off with
  | 0x00 => c.enabled
  | 0x01 => c.goodChannel
  | 0x02 => byteOf c.goodThreshold 0
  | 0x03 => byteOf c.goodThreshold 1
  | 0x04 => byteOf c.offThreshold 0
  | 0x05 => byteOf c.offThreshold 1
  | 0x06 => byteOf c.rampTimeout 0
  | 0x07 => byteOf c.rampTimeout 1
  | 0x08 => byteOf c.dischargeTimeout 0
  | 0x09 => byteOf c.dischargeTimeout 1
  | 0x0A => c.restartMode
  | 0x0B => c.tripResponse
  | _ => 0

/-- A byte written to the switch staging page (R176, R180). -/
def SwitchConfig.setByte (c : SwitchConfig) (off : Nat) (b : Byte) : SwitchConfig :=
  match off with
  | 0x00 => { c with enabled := b }
  | 0x01 => { c with goodChannel := b }
  | 0x02 => { c with goodThreshold := setLow c.goodThreshold b }
  | 0x03 => { c with goodThreshold := setHigh c.goodThreshold b }
  | 0x04 => { c with offThreshold := setLow c.offThreshold b }
  | 0x05 => { c with offThreshold := setHigh c.offThreshold b }
  | 0x06 => { c with rampTimeout := setLow c.rampTimeout b }
  | 0x07 => { c with rampTimeout := setHigh c.rampTimeout b }
  | 0x08 => { c with dischargeTimeout := setLow c.dischargeTimeout b }
  | 0x09 => { c with dischargeTimeout := setHigh c.dischargeTimeout b }
  | 0x0A => { c with restartMode := b }
  | 0x0B => { c with tripResponse := b }
  | _ => c

/-- 0 no, any other value yes (R180). -/
def SwitchConfig.isEnabled (c : SwitchConfig) : Bool := c.enabled != 0

/-- The good channel, where the byte names one (R51). -/
def SwitchConfig.channelOf (c : SwitchConfig) : Option (Fin 18) := numberBelow 18 c.goodChannel

/-- Restart mode MANUAL (R180). -/
def SwitchConfig.isManual (c : SwitchConfig) : Bool := c.restartMode == 1

/-- Trip response yes (R180). -/
def SwitchConfig.obeysTrip (c : SwitchConfig) : Bool := c.tripResponse == 1

/-- Check 5 of LOAD SWITCH: an enabled record with a good channel above C17, a timeout of 0, or a restart mode or trip
response that no encoding names (R52). -/
def SwitchConfig.fails (c : SwitchConfig) : Bool :=
  c.isEnabled && ((numberBelow 18 c.goodChannel).isNone || c.rampTimeout == 0 || c.dischargeTimeout == 0 ||
    decide (1 < c.restartMode.toNat) || decide (1 < c.tripResponse.toNat))

/-! ### The channel configuration (R95, R96, R178) -/

/-- The byte at an offset of the channel staging page (R178). -/
def ChannelStaging.byte (c : ChannelStaging) (off : Nat) : Byte :=
  match off with
  | 0x00 => c.kind
  | 0x02 => byteOf c.gain 0
  | 0x03 => byteOf c.gain 1
  | 0x04 => byteOf c.offset 0
  | 0x05 => byteOf c.offset 1
  | 0x06 => c.weight
  | _ => 0

/-- A byte written to the channel staging page (R176, R178). -/
def ChannelStaging.setByte (c : ChannelStaging) (off : Nat) (b : Byte) : ChannelStaging :=
  match off with
  | 0x00 => { c with kind := b }
  | 0x02 => { c with gain := setLow c.gain b }
  | 0x03 => { c with gain := setHigh c.gain b }
  | 0x04 => { c with offset := setLow c.offset b }
  | 0x05 => { c with offset := setHigh c.offset b }
  | 0x06 => { c with weight := b }
  | _ => c

/-- The kind a byte names (R178). -/
def ChannelKind.ofByte (b : Byte) : Option ChannelKind :=
  match b.toNat with
  | 0 => some .voltage
  | 1 => some .current
  | 2 => some .temperature
  | _ => none

/-- The code of a kind (R178). -/
def ChannelKind.code (k : ChannelKind) : Byte :=
  match k with
  | .voltage => 0
  | .current => 1
  | .temperature => 2

/-! ### The Scan List (R94, R98, R99, R180) -/

/-- The converter channels of a staged step that are not marked absent (R180). -/
def StagedScanStep.channelBytes (t : StagedScanStep) : List Byte :=
  [t.a, t.b, t.c].filter (· != 0xFF)

/-- A converter slot names no channel of its converter, the channels from `lo` to `lo + 5` (R94, R99 check 5). -/
def badSlot (lo : Nat) (b : Byte) : Bool := b != 0xFF && !(decide (lo ≤ b.toNat) && decide (b.toNat < lo + 6))

/-- The staged steps within the length (R98). -/
def ScanStaging.listed (t : ScanStaging) : List StagedScanStep := t.steps.toList.take t.length.toNat

/-- Checks 3 to 7 of LOAD SCAN LIST: the detail of the first that applies (R99). -/
def ScanStaging.firstFailing (t : ScanStaging) : Option Byte :=
  if t.length = 0 || decide (12 < t.length.toNat) then some 1
  else if t.listed.any (fun u => u.channelBytes.isEmpty) then some 2
  else if t.listed.any (fun u => badSlot 0 u.a || badSlot 6 u.b || badSlot 12 u.c) then some 3
  else if !(decide (t.listed.flatMap StagedScanStep.channelBytes).Nodup) then some 4
  else if t.listed.any (fun u => decide (15 < u.settle.toNat)) then some 5
  else none

/-- A staged step that passed its checks, as a step of a list in force (R100). -/
def StagedScanStep.toStep (t : StagedScanStep) : ScanStep where
  a := numberBelow 18 t.a
  b := numberBelow 18 t.b
  c := numberBelow 18 t.c
  settle := ⟨t.settle.toNat % 16, Nat.mod_lt _ (by decide)⟩

/-- The channels a step samples (R94). -/
def ScanStep.channels (t : ScanStep) : List (Fin 18) := [t.a, t.b, t.c].filterMap id

/-- The channels a list contains (R98). -/
def listChannels (l : List ScanStep) : List (Fin 18) := l.flatMap ScanStep.channels

/-- The byte at an offset of page 0x44 (R180). -/
def ScanStaging.byte (t : ScanStaging) (off : Nat) : Byte :=
  if off = 0 then t.length
  else if h : 4 ≤ off ∧ off < 52 then
    let u := t.steps[(off - 4) / 4]
    match (off - 4) % 4 with
    | 0 => u.a
    | 1 => u.b
    | 2 => u.c
    | _ => u.settle
  else 0

/-- A byte written to page 0x44 (R176, R180). -/
def ScanStaging.setByte (t : ScanStaging) (off : Nat) (b : Byte) : ScanStaging :=
  if off = 0 then { t with length := b }
  else if h : 4 ≤ off ∧ off < 52 then
    let u := t.steps[(off - 4) / 4]
    let v := match (off - 4) % 4 with
      | 0 => { u with a := b }
      | 1 => { u with b := b }
      | 2 => { u with c := b }
      | _ => { u with settle := b }
    { t with steps := t.steps.set ((off - 4) / 4) v }
  else t

/-! ### The sequence lists (R72, R73, R180) -/

/-- The timing byte `j` (settle delay low and high, step limit low and high) of a staged step (R180). -/
def StagedSeqStep.timing (t : StagedSeqStep) (j : Nat) : Byte :=
  match j with
  | 0 => byteOf t.settle 0
  | 1 => byteOf t.settle 1
  | 2 => byteOf t.limit 0
  | _ => byteOf t.limit 1

/-- A timing byte written to a staged step (R180). -/
def StagedSeqStep.setTiming (t : StagedSeqStep) (j : Nat) (b : Byte) : StagedSeqStep :=
  match j with
  | 0 => { t with settle := setLow t.settle b }
  | 1 => { t with settle := setHigh t.settle b }
  | 2 => { t with limit := setLow t.limit b }
  | _ => { t with limit := setHigh t.limit b }

/-- The byte at an offset of a part of page 0x43 (R180). -/
def SeqStaging.byte (t : SeqStaging) (part off : Nat) : Byte :=
  if h : off < 64 then
    match part with
    | 0 => t.up[off / 4].timing (off % 4)
    | 1 => t.down[off / 4].timing (off % 4)
    | 2 =>
      if off = 0 then t.upLength
      else if off = 1 then t.downLength
      else if h1 : 0x10 ≤ off ∧ off < 0x20 then t.up[off - 0x10].switch
      else if h2 : 0x20 ≤ off ∧ off < 0x30 then t.down[off - 0x20].switch
      else 0
    | _ => 0
  else 0

/-- A byte written to a part of page 0x43 (R176, R180). -/
def SeqStaging.setByte (t : SeqStaging) (part off : Nat) (b : Byte) : SeqStaging :=
  if h : off < 64 then
    match part with
    | 0 => { t with up := t.up.set (off / 4) (t.up[off / 4].setTiming (off % 4) b) }
    | 1 => { t with down := t.down.set (off / 4) (t.down[off / 4].setTiming (off % 4) b) }
    | 2 =>
      if off = 0 then { t with upLength := b }
      else if off = 1 then { t with downLength := b }
      else if h1 : 0x10 ≤ off ∧ off < 0x20 then
        { t with up := t.up.set (off - 0x10) { t.up[off - 0x10] with switch := b } }
      else if h2 : 0x20 ≤ off ∧ off < 0x30 then
        { t with down := t.down.set (off - 0x20) { t.down[off - 0x20] with switch := b } }
      else t
    | _ => t
  else t

/-- The staged Up List within its length (R72). -/
def SeqStaging.upSteps (t : SeqStaging) : List StagedSeqStep := t.up.toList.take t.upLength.toNat

/-- The staged Down List within its length (R72). -/
def SeqStaging.downSteps (t : SeqStaging) : List StagedSeqStep := t.down.toList.take t.downLength.toNat

/-- A staged step names a switch that is not enabled (R73 check 8). -/
def namesDisabled (switches : Vector Switch 8) (t : StagedSeqStep) : Bool :=
  match numberBelow 8 t.switch with
  | none => false
  | some i => !switches[i].config.isEnabled

/-- Checks 3 to 9 of LOAD SEQUENCE: the detail of the first that applies (R73). -/
def SeqStaging.firstFailing (t : SeqStaging) (switches : Vector Switch 8) : Option Byte :=
  if t.upLength = 0 || decide (16 < t.upLength.toNat) then some 1
  else if t.downLength = 0 || decide (16 < t.downLength.toNat) then some 2
  else if (t.upSteps ++ t.downSteps).any (fun u => decide (7 < u.switch.toNat)) then some 3
  else if !(decide (t.upSteps.map StagedSeqStep.switch).Nodup) then some 4
  else if !(decide (t.downSteps.map StagedSeqStep.switch).Nodup) then some 5
  else if (t.upSteps ++ t.downSteps).any (namesDisabled switches) then some 6
  else if t.upSteps.any (fun u => !((t.downSteps.map StagedSeqStep.switch).contains u.switch)) then some 7
  else none

/-- A staged step that passed its checks, as a step of a list in force (R74). -/
def StagedSeqStep.toStep (t : StagedSeqStep) : SeqStep where
  switch := ⟨t.switch.toNat % 8, Nat.mod_lt _ (by decide)⟩
  settle := t.settle
  limit := t.limit

/-! ### The derived configuration (R121, R178) -/

/-- The operation a byte names (R178). -/
def DerivedOp.ofByte (b : Byte) : Option DerivedOp :=
  match b.toNat with
  | 0 => some .none
  | 1 => some .sum
  | 2 => some .difference
  | 3 => some .product
  | 4 => some .maxOf
  | 5 => some .minOf
  | _ => Option.none

/-- The code of an operation (R178). -/
def DerivedOp.code (o : DerivedOp) : Byte :=
  match o with
  | .none => 0
  | .sum => 1
  | .difference => 2
  | .product => 3
  | .maxOf => 4
  | .minOf => 5

/-- The configuration a frame start obtains from the written one: as written where it is NONE or passes the check, the
default otherwise (R121; log 12). -/
def DerivedWritten.checked (w : DerivedWritten) : DerivedConfig :=
  match DerivedOp.ofByte w.op with
  | none => DerivedConfig.default
  | some .none => { op := .none, a := w.a, b := w.b, weight := w.weight }
  | some op =>
    if 17 < w.a.toNat || 17 < w.b.toNat || 7 < w.weight.toNat then DerivedConfig.default
    else { op := op, a := w.a, b := w.b, weight := w.weight }

/-- The byte at an offset of a written derived configuration's group (R178). -/
def DerivedWritten.byte (w : DerivedWritten) (j : Nat) : Byte :=
  match j with
  | 0 => w.op
  | 1 => w.a
  | 2 => w.b
  | _ => w.weight

/-- A byte written to a derived configuration's group on page 0x52 (R121, R178). -/
def DerivedWritten.setByte (w : DerivedWritten) (j : Nat) (b : Byte) : DerivedWritten :=
  match j with
  | 0 => { w with op := b }
  | 1 => { w with a := b }
  | 2 => { w with b := b }
  | _ => { w with weight := b }

end Sys2Proof.Machine
end

