-- ==== Sys2Proof/Machine/Flags.lean ====
section
/-! DEFINITION. The conditions and outputs computed from the state: active entries, effective thresholds, the trip and
recovery conditions, quietness, gate outputs, the alert condition, and the codes the window shows. -/

namespace Sys2Proof.Machine

/-! ### Entries -/

/-- The active states (R21). -/
def EntryState.active (e : EntryState) : Bool :=
  match e with
  | .off => false
  | .idle => false
  | .pending => false
  | .asserted => true
  | .recovering => true
  | .releasable => true
  | .locked => true

/-- The code of an entry state (R176). -/
def EntryState.code (e : EntryState) : Byte :=
  match e with
  | .off => 0
  | .idle => 1
  | .pending => 2
  | .asserted => 3
  | .recovering => 4
  | .releasable => 5
  | .locked => 6

/-- The shift of an entry's thresholds: the delta of its derate link while the reference is active, else 0 (R7). -/
def State.derateShift (s : State) (c : EntryConfig) : Int :=
  match c.reference with
  | none => 0
  | some r => if s.entries[r].state.active then c.derateDelta.toInt else 0

/-- The effective trip threshold (R7). -/
def State.effectiveTrip (s : State) (c : EntryConfig) : Reading := saturate (c.trip.toInt + s.derateShift c)

/-- The effective recovery threshold (R7). -/
def State.effectiveRecovery (s : State) (c : EntryConfig) : Reading := saturate (c.recovery.toInt + s.derateShift c)

/-- The trip condition of a value against an effective trip threshold (R4). -/
def tripCondition (below : Bool) (value threshold : Reading) : Bool :=
  if below then decide (value.toInt ≤ threshold.toInt) else decide (threshold.toInt ≤ value.toInt)

/-- The recovery condition of a value against an effective recovery threshold (R4). -/
def recoveryCondition (below : Bool) (value threshold : Reading) : Bool :=
  if below then decide (threshold.toInt < value.toInt) else decide (value.toInt < threshold.toInt)

/-- The value an evaluation compares (R3). -/
def MeasRecord.valueFor (r : MeasRecord) (c : EntryConfig) : Reading := if c.isAverage then r.average else r.latest

/-! ### Switches -/

/-- GATEs is energised exactly in RAMPING and ON (R55). -/
def SwitchState.energised (x : SwitchState) : Bool :=
  match x with
  | .off => false
  | .ramping => true
  | .on => true
  | .blocked => false
  | .tripped => false
  | .failed => false

/-- The gate output of switch `i` (R50, R55). -/
def State.gate (s : State) (i : Fin 8) : Bool := s.switches[i].state.energised

/-- The code of a switch state (R176). -/
def SwitchState.code (x : SwitchState) : Byte :=
  match x with
  | .off => 0
  | .ramping => 1
  | .on => 2
  | .blocked => 3
  | .tripped => 4
  | .failed => 5

/-! ### Scan Unit -/

/-- The Scan Unit is quiet (R108). -/
def ScanUnit.quiet (u : ScanUnit) : Bool := u.mode == .stopped && !u.scanning

/-- The code of a scan mode (R172). -/
def ScanMode.code (m : ScanMode) : Byte :=
  match m with
  | .stopped => 0
  | .timed => 1
  | .sync => 2

/-- The scan mode a byte names (R101, R172). -/
def ScanMode.ofByte (b : Byte) : Option ScanMode :=
  match b.toNat with
  | 0 => some .stopped
  | 1 => some .timed
  | 2 => some .sync
  | _ => none

/-! ### Sequencer -/

/-- The code of a sequencer state in STATUS (R172). -/
def SeqState.code (x : SeqState) : Byte :=
  match x with
  | .notReady => 0
  | .standby => 1
  | .poweringUp _ _ => 2
  | .running => 3
  | .poweringDown _ _ _ => 4

/-- The step index the host reads: 0 outside POWERING_UP and POWERING_DOWN (R71). -/
def SeqState.index (x : SeqState) : Nat :=
  match x with
  | .poweringUp i _ => i
  | .poweringDown i _ _ => i
  | .notReady => 0
  | .standby => 0
  | .running => 0

/-- A sequence is in progress or the board is up: POWERING_UP, RUNNING or POWERING_DOWN (R73, R185). -/
def SeqState.busy (x : SeqState) : Bool :=
  match x with
  | .notReady => false
  | .standby => false
  | .poweringUp _ _ => true
  | .running => true
  | .poweringDown _ _ _ => true

/-- The last outcome that a power-down's cause sets (R87). -/
def DownCause.outcome (c : DownCause) : LastOutcome :=
  match c with
  | .host => .downHost
  | .entry n => .abortEntry n
  | .ramp i => .abortRamp i
  | .timeout i => .abortTimeout i

/-- The detail of SEQ_DOWN_DONE: the cause in the low byte, its number in the high byte (R175). -/
def DownCause.detail (c : DownCause) : Half :=
  match c with
  | .host => 0x0001
  | .entry n => BitVec.ofNat 8 n.val ++ (0x02 : Byte)
  | .ramp i => BitVec.ofNat 8 i.val ++ (0x03 : Byte)
  | .timeout i => BitVec.ofNat 8 i ++ (0x04 : Byte)

/-- The class of SEQ_DOWN_DONE (R91). -/
def DownCause.cls (c : DownCause) : Fin 4 :=
  match c with
  | .host => 1
  | .entry _ => 2
  | .ramp _ => 2
  | .timeout _ => 2

/-- LAST_OUTCOME: the outcome in the low byte, its number in the high byte (R172). -/
def LastOutcome.bytes (o : LastOutcome) : Half :=
  match o with
  | .none => 0x0000
  | .upDone => 0x0001
  | .downHost => 0x0002
  | .abortEntry n => BitVec.ofNat 8 n.val ++ (0x03 : Byte)
  | .abortRamp i => BitVec.ofNat 8 i.val ++ (0x04 : Byte)
  | .abortTimeout i => BitVec.ofNat 8 i ++ (0x05 : Byte)

/-! ### Fault Memory -/

/-- A slot is non-empty: WRITING, VALID or ERASING (R14, R139). -/
def SlotView.nonEmpty (v : SlotView) : Bool :=
  match v with
  | .empty _ => false
  | .writing _ _ _ _ => true
  | .valid _ _ => true
  | .erasing _ _ => true

/-- The entry a non-empty slot names (R139). -/
def SlotView.names (v : SlotView) : Option (Fin 32) :=
  match v with
  | .empty _ => none
  | .writing e _ _ _ => some e
  | .valid h _ => some h.entry
  | .erasing h _ => some h.entry

/-- The lowest-numbered slot that satisfies `p`. -/
def FaultMemory.findSlot (f : FaultMemory) (p : SlotView → Bool) : Option (Fin 4) :=
  (List.finRange 4).find? fun k => p f.slots[k]

/-- The slot that names an entry (R14, R144): at most one does (R139). -/
def FaultMemory.slotNaming (f : FaultMemory) (n : Fin 32) : Option (Fin 4) :=
  f.findSlot fun v => v.names == some n

/-- The code of a slot state (R176). -/
def SlotView.code (v : SlotView) : Byte :=
  match v with
  | .empty _ => 0
  | .writing _ _ _ _ => 1
  | .valid _ _ => 2
  | .erasing _ _ => 3

/-! ### Event Queue -/

/-- ALERT_N is to be asserted: a record of class at or above the alert level is held (R163). -/
def EventQueue.alertCondition (q : EventQueue) : Bool :=
  q.records.any fun r => decide (q.alertLevel.val ≤ r.cls.val)

/-- The code of an event kind (R175). -/
def EventKind.code (k : EventKind) : Byte :=
  match k with
  | .entryAsserted => 0x01
  | .entryLocked => 0x02
  | .entryRecovered => 0x03
  | .entryTransient => 0x04
  | .loadDone => 0x05
  | .loadAbandoned => 0x06
  | .switchRampFail => 0x10
  | .tripLineAsserted => 0x11
  | .tripLineReleased => 0x12
  | .seqUpDone => 0x20
  | .seqDownDone => 0x21
  | .seqStepTimeout => 0x22
  | .dischargeTimeout => 0x23
  | .scanOverrun => 0x30
  | .lockStored => 0x40
  | .lockNotStored => 0x41
  | .lockCleared => 0x42
  | .lockRestored => 0x43
  | .recordDiscarded => 0x44
  | .deviceReady => 0x50

/-- The byte of a result code (R174). -/
def ResultCode.code (c : ResultCode) : Byte :=
  match c with
  | .noCommand => 0x00
  | .ok => 0x01
  | .accepted => 0x02
  | .badCommand => 0x10
  | .badArgument => 0x11
  | .notReady => 0x12
  | .badEntry => 0x20
  | .loadPending => 0x21
  | .entryBusy => 0x22
  | .entryLockHeld => 0x23
  | .notRecovered => 0x24
  | .notAsserted => 0x25
  | .switchBusy => 0x30
  | .switchState => 0x31
  | .seqBusy => 0x40
  | .seqIdle => 0x41
  | .alreadyUp => 0x42
  | .notService => 0x50
  | .noLock => 0x51
  | .lockBusy => 0x52
  | .queueEmpty => 0x60

end Sys2Proof.Machine
end

