-- ==== Sys2Proof/Machine/Queue.lean ====
section
/-! DEFINITION. The Event Queue (R153 to R166): taking an arrival, and POP EVENT, CLEAR LOSS and the ALERT_LEVEL
write. -/

namespace Sys2Proof.Machine

/-- ALERT_N brought up to date (R163). -/
def EventQueue.updated (q : EventQueue) : EventQueue := { q with alert := q.alertCondition }

/-- An arrival accepted: it takes the next sequence number and the loss mark and joins the tail (R156, R157). -/
def EventQueue.accept (q : EventQueue) (r : EventRecord) : EventQueue :=
  { q with
    records := q.records ++ [{ r with seq := q.nextSeq, lossBefore := q.lossMark }]
    nextSeq := q.nextSeq + 1
    lossMark := false }.updated

/-- A loss counted and marked (R159). -/
def EventQueue.lose (q : EventQueue) : EventQueue :=
  { q with lossCount := satSucc8 q.lossCount, lossMark := true }

/-- The lowest class held (R158). -/
def EventQueue.lowestClass (q : EventQueue) : Nat := (q.records.map fun r => r.cls.val).foldr min 4

/-- The newest record of the lowest class removed (R158). -/
def EventQueue.displace (q : EventQueue) : EventQueue :=
  { q with records := eraseLast (fun r => r.cls.val == q.lowestClass) q.records }

/-- The queue takes an arrival: accepted with room; when full, a record of lower class is displaced, or the arrival is
discarded (R155, R156, R158). DESIGN CHOICE (log 25): after a displacement the loss mark is clear, as R158 and the worked
sequence have it; R162 says of a displacement beside a CLEAR LOSS that the mark is set after both. -/
def EventQueue.arrive (q : EventQueue) (r : EventRecord) : EventQueue :=
  if q.records.length < 32 then q.accept r
  else if q.lowestClass < r.cls.val then q.displace.lose.accept r
  else q.lose

/-- A block posts an event, stamped with the time-stamp counter (R153, R154, R155). -/
def State.post (s : State) (kind : EventKind) (source : Option Nat) (detail : Half) (cls : Fin 4) : State :=
  let r : EventRecord :=
    { seq := 0, timestamp := s.timestamp, kind := kind, source := source, detail := detail, cls := cls,
      lossBefore := false }
  { s with queue := s.queue.arrive r }

/-- POP EVENT (R160). -/
def popEventBody (s : State) : Reply :=
  match s.queue.records with
  | [] => s.refuse .queueEmpty
  | r :: rest => ⟨{ s with queue := { s.queue with records := rest }.updated }, .ok, byteOf r.seq 0⟩

/-- CLEAR LOSS (R161). -/
def clearLossBody (s : State) : Reply :=
  ⟨{ s with queue := { s.queue with lossCount := 0 } }, .ok, s.queue.lossCount⟩

/-- A byte taken at ALERT_LEVEL: 0 to 4 becomes the level and ALERT_N is brought up to date; more is ignored (R164). -/
def writeAlertLevel (value : Byte) (s : State) : State :=
  match numberBelow 5 value with
  | none => s
  | some level => { s with queue := { s.queue with alertLevel := level }.updated }

/-- The queue emptied by SOFT RESET (R166). -/
def State.clearQueue (s : State) : State := { s with queue := EventQueue.default }

/-- POP_EVENT (R160): a step of the table. -/
def execPopEvent (s : State) : Host.Outcome State Fault Refusal := .next (takeCommand popEventBody s)

/-- CLEAR_LOSS (R161). -/
def execClearLoss (s : State) : Host.Outcome State Fault Refusal := .next (takeCommand clearLossBody s)

/-- ALERT_LEVEL_WRITE (R164, R173). -/
def execAlertLevelWrite (value : Byte) (s : State) : Host.Outcome State Fault Refusal :=
  .next (takeWrite 0x0D (writeAlertLevel value) s)

end Sys2Proof.Machine
end

