-- ==== Sys2Proof/Machine/Capture.lean ====
section
/-! DEFINITION. The Capture Store (R127 to R137): making a record, ids, replacement, pins, and DROP CAPTURES. -/

namespace Sys2Proof.Machine

/-- The companion list of a record: the configured channels whose records are valid, in list order, with their latest
readings (R128 step 2). -/
def State.companionReadings (s : State) (c : EntryConfig) : List Companion :=
  c.companions.filterMap fun ch =>
    if s.records[channelSource ch].valid then some { channel := ch, reading := s.records[channelSource ch].latest }
    else none

/-- The first id from `id` on that no record held carries (R129): `tries` bounds the search, and nine suffice. -/
def firstFreeId (held : List Byte) : Nat → Byte → Byte
  | 0, id => id
  | tries + 1, id => if held.contains id then firstFreeId held tries (id + 1) else id

/-- The id the store gives the next record (R129). -/
def CaptureStore.assignId (c : CaptureStore) : Byte := firstFreeId (c.records.map CaptureRecord.id) 9 c.nextId

/-- How many records held are pinned (R131). -/
def CaptureStore.pinnedCount (c : CaptureStore) : Nat := c.records.countP CaptureRecord.pinned

/-- Room for a new record: with eight held, the oldest unpinned record is removed (R130). -/
def CaptureStore.makeRoom (c : CaptureStore) : CaptureStore :=
  if c.records.length < 8 then c else { c with records := eraseLast (fun r => !r.pinned) c.records }

/-- The store makes the record of a qualification and answers its id (R128 steps 3 to 7 and 9). -/
def CaptureStore.make (c : CaptureStore) (entry : Fin 32) (lock : Bool) (now : Word) (d : DwellRecord)
    (companions : List Companion) : CaptureStore × CaptureRecord :=
  let room := c.makeRoom
  let r : CaptureRecord :=
    { id := c.assignId, entry := entry, timestamp := now, frame := d.frame, trigger := d.value,
      threshold := d.threshold, companions := companions, pinned := lock && decide (room.pinnedCount < 4) }
  ({ records := r :: room.records, nextId := c.assignId + 1 }, r)

/-- What Fault Memory keeps of a capture record (R132). -/
def CaptureRecord.lockBody (r : CaptureRecord) : LockBody :=
  { captureId := r.id, trigger := r.trigger, threshold := r.threshold, companions := r.companions }

/-- The store takes a capture request for entry `n`: the record is made, and for tier LOCK its copy is handed to Fault
Memory (R128, R132). -/
def State.capture (s : State) (n : Fin 32) (d : DwellRecord) : State × Byte :=
  let c := s.entries[n].config
  let made := s.captures.make n c.isLock s.timestamp d (s.companionReadings c)
  let s1 := { s with captures := made.1 }
  (if c.isLock then
      s1.modFault fun f => { f with copies := f.copies ++ [{ entry := n, body := made.2.lockBody }] }
    else s1, made.2.id)

/-- The oldest pinned record of an entry is unpinned (R133): the records stand newest first. -/
def CaptureStore.unpin (c : CaptureStore) (n : Fin 32) : CaptureStore :=
  let p := fun r : CaptureRecord => r.entry == n && r.pinned
  let older := c.records.reverse
  { c with records := (older.modify (older.findIdx p) fun r => { r with pinned := false }).reverse }

/-- The store takes an unpin message (R133). -/
def State.unpin (s : State) (n : Fin 32) : State := { s with captures := s.captures.unpin n }

/-- DROP CAPTURES (R134). -/
def dropCapturesBody (s : State) : Reply :=
  if !s.ready then s.refuse .notReady
  else
    let kept := s.captures.records.filter CaptureRecord.pinned
    ⟨{ s with captures := { s.captures with records := kept } }, .ok,
      BitVec.ofNat 8 (s.captures.records.length - kept.length)⟩

/-- DROP_CAPTURES (R134). -/
def execDropCaptures (s : State) : Host.Outcome State Fault Refusal := .next (takeCommand dropCapturesBody s)

end Sys2Proof.Machine
end

