-- ==== Sys2Proof/Machine/Holds.lean ====
section
/-! DEFINITION. What moves one switch: demand, holders that join and leave, and the ramp (R54 to R60, R65). None of it
reaches another block. -/

namespace Sys2Proof.Machine

/-- A holder (R65). -/
inductive Holder where
  | e (n : Fin 32)
  | k (slot : Fin 4)
  | x
  deriving DecidableEq, Repr

/-- The place of a holder in the order E0 to E31, K0 to K3, X (R65). -/
def Holder.index (h : Holder) : Nat :=
  match h with
  | .e n => n.val
  | .k slot => 32 + slot.val
  | .x => 36

/-- The mark of a holder in a hold set (R65). -/
def Holder.mark (h : Holder) : HoldSet := (1#37) <<< h.index

/-- A holder is a member of a hold set (R65). -/
def HoldSet.has (set : HoldSet) (h : Holder) : Bool := set.getLsbD h.index

/-- The switch enters RAMPING: its ramp timer starts with tRAMP (R55). -/
def Switch.startRamp (w : Switch) : Switch :=
  { w with state := .ramping, rampTimer := some w.config.rampTimeout }

/-- The switch enters a state other than RAMPING: no ramp timer runs (R55). -/
def Switch.enter (w : Switch) (x : SwitchState) : Switch := { w with state := x, rampTimer := none }

/-- The switch takes a demand message; one that repeats its demand changes nothing (R54, R56). -/
def Switch.takeDemand (w : Switch) (on : Bool) : Switch :=
  if w.demand = on then w
  else if on then
    let v := { w with demand := true }
    match w.state with
    | .off => if w.holds = 0 then v.startRamp else v.enter .blocked
    | .ramping => v
    | .on => v
    | .blocked => v
    | .tripped => v
    | .failed => v
  else { w with demand := false }.enter .off

/-- The hold set has become non-empty (R57, R58, R59). -/
def Switch.becomeHeld (w : Switch) : Switch :=
  match w.state with
  | .off => w
  | .ramping => w.enter .blocked
  | .on => w.enter .blocked
  | .blocked => w
  | .tripped => w.enter .blocked
  | .failed => w

/-- The hold set has become empty (R58, R59). -/
def Switch.becomeFree (w : Switch) : Switch :=
  match w.state with
  | .off => w
  | .ramping => w
  | .on => w
  | .blocked => if w.config.isManual then w.enter .tripped else w.startRamp
  | .tripped => w
  | .failed => w

/-- A holder joins the switch's hold set (R65). -/
def Switch.join (w : Switch) (h : Holder) : Switch :=
  let v := { w with holds := w.holds ||| h.mark }
  if w.holds = 0 then v.becomeHeld else v

/-- A holder leaves the switch's hold set (R65). -/
def Switch.leave (w : Switch) (h : Holder) : Switch :=
  let v := { w with holds := w.holds &&& ~~~h.mark }
  if w.holds ≠ 0 ∧ v.holds = 0 then v.becomeFree else v

/-- RESTART SWITCH taken in TRIPPED or FAILED (R59). -/
def Switch.restart (w : Switch) : Switch := if w.holds = 0 then w.startRamp else w.enter .blocked

/-- The Sequencer informs the Switch Controller of a demand (R54). -/
def State.demand (s : State) (i : Fin 8) (on : Bool) : State := s.modSwitch i fun w => w.takeDemand on

/-- Every switch changed by a function of its number. -/
def State.mapSwitches (s : State) (f : Fin 8 → Switch → Switch) : State :=
  { s with switches := Vector.ofFn fun i => f i s.switches[i] }

/-- A holder joins the switches of a mask (R65). -/
def State.joinMask (s : State) (h : Holder) (mask : Byte) : State :=
  s.mapSwitches fun i w => if mask.getLsbD i.val then w.join h else w

/-- A holder leaves the switches of a mask (R65). -/
def State.leaveMask (s : State) (h : Holder) (mask : Byte) : State :=
  s.mapSwitches fun i w => if mask.getLsbD i.val then w.leave h else w

end Sys2Proof.Machine
end

