-- ==== Sys2Proof/Machine/Lock.lean ====
section
/-! DEFINITION. Fault Memory (R138 to R152): its work list, programs, lock requests, interruption by a reset and the
restore. The erase completions, which reach other blocks, stand in Machine/Qualify.lean. -/

namespace Sys2Proof.Machine

/-! ### The work list -/

/-- One more than the serial word (R141); a failing word counts as 0, which the restore leaves no program to meet
(R148). -/
def SerialWord.next (w : SerialWord) : Half :=
  match w with
  | .value x => x + 1
  | .failing => 1

/-- The serial phase of slot `k`'s program begins: its held record carries the new serial (R141). -/
def FaultMemory.startProgram (f : FaultMemory) (k : Fin 4) : FaultMemory :=
  match f.slots[k] with
  | .writing e m _ b =>
    { f with slots := f.slots.set k (.writing e m (some f.serialWord.next) b), phase := some .serial }
  | .empty _ => { f with phase := some .serial }
  | .valid _ _ => { f with phase := some .serial }
  | .erasing _ _ => { f with phase := some .serial }

/-- The item at the head starts, if there is one (R140). -/
def FaultMemory.startHead (f : FaultMemory) : FaultMemory :=
  match f.work with
  | [] => { f with phase := none }
  | item :: _ =>
    match item.kind with
    | .program => f.startProgram item.slot
    | .erase => { f with phase := some .mark }
    | .cleanup => { f with phase := some .mark }
    | .cleanupThenProgram => { f with phase := some .mark }

/-- An item joins the tail; on an empty work list it starts at once (R140). -/
def FaultMemory.enqueue (f : FaultMemory) (item : WorkItem) : FaultMemory :=
  let g := { f with work := f.work ++ [item] }
  if f.work.isEmpty then g.startHead else g

/-- The item in flight leaves the list and the next starts (R140). -/
def FaultMemory.finishHead (f : FaultMemory) : FaultMemory := { f with work := f.work.tail }.startHead

/-- Slot `k` takes a view. -/
def FaultMemory.setSlot (f : FaultMemory) (k : Fin 4) (v : SlotView) : FaultMemory :=
  { f with slots := f.slots.set k v }

/-- The medium of slot `k` changed. -/
def FaultMemory.modMedium (f : FaultMemory) (k : Fin 4) (g : SlotMedium → SlotMedium) : FaultMemory :=
  { f with medium := f.medium.set k (g f.medium[k]) }

/-! ### Lock requests -/

/-- The slot's cleanup erase item becomes a cleanup erase then program item in its place (R149). -/
def upgradeItem (k : Fin 4) (item : WorkItem) : WorkItem :=
  if item.slot = k ∧ item.kind = .cleanup then { item with kind := .cleanupThenProgram } else item

/-- The slot a lock request reserves: the lowest-numbered EMPTY slot, with its cleanup mark or without (R143). -/
def FaultMemory.reservable (f : FaultMemory) : Option (Fin 4) := f.findSlot fun v => !v.nonEmpty

/-- The copy that waits for an entry's lock request (R143). -/
def FaultMemory.copyFor (f : FaultMemory) (n : Fin 32) : LockBody :=
  match f.copies.find? (fun c => c.entry == n) with
  | some c => c.body
  | none => { captureId := 0, trigger := 0, threshold := 0, companions := [] }

/-- Slot `k` is reserved for a lock (R143, R149). -/
def FaultMemory.reserve (f : FaultMemory) (k : Fin 4) (n : Fin 32) (mask : Byte) : FaultMemory :=
  let g := f.setSlot k (.writing n mask none (f.copyFor n))
  match f.slots[k] with
  | .empty true => { g with work := g.work.map (upgradeItem k) }
  | .empty false => g.enqueue { kind := .program, slot := k }
  | .writing _ _ _ _ => g
  | .valid _ _ => g
  | .erasing _ _ => g

/-- The copy of an entry is discarded (R143). -/
def FaultMemory.dropCopy (f : FaultMemory) (n : Fin 32) : FaultMemory :=
  { f with copies := f.copies.eraseP fun c => c.entry == n }

/-- Fault Memory takes a lock request (R143). -/
def State.lockRequest (s : State) (n : Fin 32) (mask : Byte) : State :=
  match s.fault.reservable with
  | some k => s.modFault fun f => (f.reserve k n mask).dropCopy n
  | none => (s.modFault fun f => f.dropCopy n).post .lockNotStored (some n.val) 0 3

/-! ### Programs -/

/-- The slot whose program is in flight in phase `p`: the head is a program, or a cleanup erase then program. -/
def FaultMemory.programming (f : FaultMemory) (p : OpPhase) : Option (Fin 4) :=
  match f.work with
  | [] => none
  | item :: _ =>
    if f.phase = some p ∧ (item.kind = .program ∨ item.kind = .cleanupThenProgram) then some item.slot else none

/-- The serial or header phase of a program ends on the medium and the next phase begins (R141). -/
def FaultMemory.programPhaseEnd (f : FaultMemory) : FaultMemory :=
  match f.programming .serial with
  | some k =>
    match f.slots[k] with
    | .writing _ _ (some x) _ => { f with serialWord := .value x, phase := some .header }
    | .writing _ _ none _ => f
    | .empty _ => f
    | .valid _ _ => f
    | .erasing _ _ => f
  | none =>
    match f.programming .header with
    | some k =>
      match f.slots[k] with
      | .writing e m (some x) _ =>
        { f.modMedium k (fun d => { d with header := .whole { entry := e, mask := m, serial := x } }) with
          phase := some .body }
      | .writing _ _ none _ => f
      | .empty _ => f
      | .valid _ _ => f
      | .erasing _ _ => f
    | none => f

/-- The body phase ends: the slot becomes VALID, its K-holder joins, LOCK_STORED is posted, and the next item starts
(R140, R141). -/
def programComplete (s : State) : State :=
  match s.fault.programming .body with
  | none => s
  | some k =>
    match s.fault.slots[k] with
    | .writing e m (some x) b =>
      let s1 := s.modFault fun f =>
        (f.modMedium k fun d => { d with body := .whole b }).setSlot k
          (.valid { entry := e, mask := m, serial := x } (some b))
      let s2 := (s1.joinMask (.k k) m).post .lockStored (some k.val) (BitVec.ofNat 16 e.val) 2
      s2.modFault FaultMemory.finishHead
    | .writing _ _ none _ => s
    | .empty _ => s
    | .valid _ _ => s
    | .erasing _ _ => s

/-! ### Erases -/

/-- The slot whose erase is in flight in phase `p`, with its item's kind (R142, R149). -/
def FaultMemory.erasingNow (f : FaultMemory) (p : OpPhase) : Option (Fin 4 × WorkKind) :=
  match f.work with
  | [] => none
  | item :: _ => if f.phase = some p ∧ item.kind ≠ .program then some (item.slot, item.kind) else none

/-- The mark or clear phase of an erase ends on the medium and the next phase begins (R142). -/
def FaultMemory.erasePhaseEnd (f : FaultMemory) : FaultMemory :=
  match f.erasingNow .mark with
  | some (k, _) =>
    { f.modMedium k (fun d => { d with mark := .whole () }) with phase := some .clear }
  | none =>
    match f.erasingNow .clear with
    | some (k, _) =>
      { f.modMedium k (fun d => { d with header := .blank, body := .blank }) with phase := some .unmark }
    | none => f

/-- A cleanup erase ends: the slot's cleanup mark clears and the next item starts, or the program part of a cleanup erase
then program item starts (R142, R149). -/
def FaultMemory.cleanupComplete (f : FaultMemory) : FaultMemory :=
  match f.erasingNow .unmark with
  | none => f
  | some (k, kind) =>
    let g := f.modMedium k fun d => { d with mark := .blank }
    match kind with
    | .cleanup =>
      match f.slots[k] with
      | .empty _ => (g.setSlot k (.empty false)).finishHead
      | .writing _ _ _ _ => f
      | .valid _ _ => f
      | .erasing _ _ => f
    | .cleanupThenProgram => g.startProgram k
    | .erase => f
    | .program => f

/-! ### Interruption by a reset (R147; log 5) -/

/-- An area that a clear phase was erasing: blank stays blank; otherwise blank or in part, as the bit says. -/
def Area.cleared {α : Type} (x : Area α) (part : Bool) : Area α :=
  match x with
  | .blank => .blank
  | .partly => if part then .partly else .blank
  | .whole _ => if part then .partly else .blank

/-- What a reset in the serial phase leaves of the serial word: the new serial, a failing check, or the word as it was, if
nothing was written yet (R147, and the worked sequence after R152). -/
def SerialWord.interrupted (w : SerialWord) (outcome : Nat) : SerialWord :=
  if outcome % 3 = 0 then .value w.next else if outcome % 3 = 1 then .failing else w

/-- The medium of a slot after a reset in a phase of its operation; `outcome` is a free value. -/
def SlotMedium.interrupted (d : SlotMedium) (p : OpPhase) (outcome : Nat) : SlotMedium :=
  match p with
  | .serial => d
  | .header => { d with header := .partly }
  | .body => { d with body := .partly }
  | .mark => if outcome % 2 = 0 then { d with mark := .partly } else d
  | .clear =>
    { d with header := d.header.cleared (outcome % 2 == 0), body := d.body.cleared (outcome / 2 % 2 == 0) }
  | .unmark => { d with mark := .partly }

/-- The medium after a reset: the item in flight stops where it stands, and items not started leave it as it was. -/
def FaultMemory.interruptedMedium (f : FaultMemory) (outcome : Nat) : Vector SlotMedium 4 :=
  match f.work, f.phase with
  | [], _ => f.medium
  | _ :: _, none => f.medium
  | item :: _, some p => f.medium.set item.slot (f.medium[item.slot].interrupted p outcome)

/-- The serial word after a reset. -/
def FaultMemory.interruptedSerial (f : FaultMemory) (outcome : Nat) : SerialWord :=
  match f.work, f.phase with
  | [], _ => f.serialWord
  | _ :: _, none => f.serialWord
  | _ :: _, some p => if p = .serial then f.serialWord.interrupted outcome else f.serialWord

/-! ### The restore (R148, R183) -/

/-- What the restore makes of a slot's medium (R148). -/
def SlotMedium.restored (d : SlotMedium) : SlotView :=
  match d.mark, d.header, d.body with
  | .blank, .whole h, .whole b => .valid h (some b)
  | .blank, .whole h, .blank => .valid h none
  | .blank, .whole h, .partly => .valid h none
  | .blank, .blank, .blank => .empty false
  | .blank, .blank, .partly => .empty true
  | .blank, .blank, .whole _ => .empty true
  | .blank, .partly, _ => .empty true
  | .partly, _, _ => .empty true
  | .whole _, _, _ => .empty true

/-- The detail of LOCK_RESTORED: the entry in the low byte, 1 in the high byte where the body is absent (R175). -/
def restoredDetail (e : Fin 32) (body : Option LockBody) : Half :=
  (if body.isNone then (1 : Byte) else 0) ++ BitVec.ofNat 8 e.val

/-- The restore settles slot `k`: its state, its K-holder, its cleanup item, and its event (R148, R183). -/
def State.settleSlot (s : State) (k : Fin 4) : State :=
  let v := s.fault.medium[k].restored
  let s1 := s.modFault fun f => { f.setSlot k v with restore := some (k.val + 1) }
  match v with
  | .valid h b =>
    (s1.joinMask (.k k) h.mask).post .lockRestored (some k.val) (restoredDetail h.entry b) 3
  | .empty true =>
    (s1.modFault fun f => { f with work := f.work ++ [{ kind := .cleanup, slot := k }] }).post .recordDiscarded
      (some k.val) 0 2
  | .empty false => s1
  | .writing _ _ _ _ => s1
  | .erasing _ _ => s1

/-- The slots from `j` on are settled, in order (R148). -/
def State.settleFrom (s : State) (j : Nat) : State :=
  ((List.finRange 4).filter fun k => decide (j ≤ k.val)).foldl State.settleSlot s

/-- The lock serials among the headers on the medium that pass (R148). -/
def FaultMemory.passingSerials (f : FaultMemory) : List Half :=
  f.medium.toList.filterMap fun d =>
    match d.header with
    | .whole h => some h.serial
    | .blank => none
    | .partly => none

/-- How far up from `x`, modulo 65536, the next of the serials lies: the run of values after `x` that none carries is
one shorter (R148). -/
def serialGap (l : List Half) (x : Half) : Nat :=
  ((l.filter (· != x)).map fun y => (y - x).toNat).foldr min 65536

/-- The most recent serial: followed by the longest run, and of equal runs the one that follows the higher serial
(R148); 0 where no header passes. -/
def mostRecentSerial (l : List Half) : Half :=
  l.foldl (fun best x =>
    if serialGap l best < serialGap l x ∨ (serialGap l best = serialGap l x ∧ best.toNat < x.toNat) then x else best)
    (l.headD 0)

/-- The serial word, where its check fails, set by the restore (R148). -/
def FaultMemory.repairSerial (f : FaultMemory) : FaultMemory :=
  match f.serialWord with
  | .value _ => f
  | .failing => { f with serialWord := .value (mostRecentSerial f.passingSerials) }

/-- How many slots are VALID (R183). -/
def FaultMemory.validCount (f : FaultMemory) : Nat :=
  f.slots.toList.countP fun v => match v with
    | .valid _ _ => true
    | .empty _ => false
    | .writing _ _ _ _ => false
    | .erasing _ _ => false

/-- RESTORE_SLOT_SETTLED: the restore in progress settles its next slot (R148). -/
def restoreSlotSettled (s : State) : State :=
  match s.fault.restore with
  | none => s
  | some j => if h : j < 4 then s.settleSlot ⟨j, h⟩ else s

/-- RESTORE_COMPLETE: the restore in progress settles what is left (log 13), sets a failing serial word, and then
STANDBY, ready, DEVICE_READY and the first cleanup erase follow as one event (R148, R183). -/
def restoreComplete (s : State) : State :=
  match s.fault.restore with
  | none => s
  | some j =>
    let s1 := (s.settleFrom j).modFault fun f => { f.repairSerial with restore := none }
    let s2 := { s1.modSeq (fun q => { q with state := .standby }) with ready := true }
    let s3 := s2.post .deviceReady none (BitVec.ofNat 16 s2.fault.validCount) 0
    s3.modFault FaultMemory.startHead

/-- PROGRAM_PHASE_END (R141). -/
def execProgramPhaseEnd (s : State) : Host.Outcome State Fault Refusal :=
  .next (awake (fun t => t.modFault FaultMemory.programPhaseEnd) s)

/-- PROGRAM_COMPLETE (R141). -/
def execProgramComplete (s : State) : Host.Outcome State Fault Refusal := .next (awake programComplete s)

/-- ERASE_PHASE_END (R142). -/
def execErasePhaseEnd (s : State) : Host.Outcome State Fault Refusal :=
  .next (awake (fun t => t.modFault FaultMemory.erasePhaseEnd) s)

/-- CLEANUP_ERASE_COMPLETE (R142, R149). -/
def execCleanupEraseComplete (s : State) : Host.Outcome State Fault Refusal :=
  .next (awake (fun t => t.modFault FaultMemory.cleanupComplete) s)

/-- RESTORE_SLOT_SETTLED (R148). -/
def execRestoreSlotSettled (s : State) : Host.Outcome State Fault Refusal := .next (awake restoreSlotSettled s)

/-- RESTORE_COMPLETE (R183). -/
def execRestoreComplete (s : State) : Host.Outcome State Fault Refusal := .next (awake restoreComplete s)

end Sys2Proof.Machine
end

