-- ==== Sys2Proof/Machine/Sequence.lean ====
section
/-! DEFINITION. The Sequencer (R71 to R93): steps, power-downs, the messages it takes, its commands and the expiries of
its timers. -/

namespace Sys2Proof.Machine

/-- No timer of the Sequencer runs. -/
def Sequencer.stopTimers (q : Sequencer) : Sequencer :=
  { q with stepLimit := none, discharge := none, settle := none }

/-- The end of the Up List (R85). -/
def State.upListEnd (s : State) : State :=
  (s.modSeq fun q => { q.stopTimers with state := .running, outcome := .upDone }).post .seqUpDone none 0 0

/-- The end of the Down List: STANDBY, and SEQ_DOWN_DONE with the cause (R91). -/
def State.downListEnd (s : State) (cause : DownCause) : State :=
  (s.modSeq fun q => { q.stopTimers with state := .standby }).post .seqDownDone none cause.detail cause.cls

/-- Up step `i` begins, or the list's end is taken (R77, R78). -/
def State.beginUp (s : State) (i : Nat) : State :=
  match s.seq.upList[i]? with
  | none => s.upListEnd
  | some t =>
    let s1 := s.modSeq fun q => { q.stopTimers with state := .poweringUp i .waiting }
    let s2 := s1.demand t.switch true
    if t.limit = 0 then s2 else s2.modSeq fun q => { q with stepLimit := some t.limit }

/-- The down steps `rest` are run from step `i` on: each sets its demand OFF; one whose indicator is true and whose
settle delay is 0 completes in the same event and the next begins (R77, R81). -/
def runDown (cause : DownCause) : List SeqStep → Nat → State → State
  | [], _, s => s.downListEnd cause
  | t :: rest, i, s =>
    let s1 := s.modSeq fun q => { q.stopTimers with state := .poweringDown i .waiting cause }
    let s2 := s1.demand t.switch false
    if s2.switches[t.switch].discharged then
      if t.settle = 0 then runDown cause rest (i + 1) s2
      else s2.modSeq fun q => { q with state := .poweringDown i .settling cause, settle := some t.settle }
    else s2.modSeq fun q => { q with discharge := some s2.switches[t.switch].config.dischargeTimeout }

/-- Down step `i` begins, or the list's end is taken (R77, R81). -/
def State.beginDown (s : State) (cause : DownCause) (i : Nat) : State :=
  runDown cause (s.seq.downList.drop i) i s

/-- A power-down begins with a cause: the timers stop, the last outcome is set, and down step 0 begins (R87). -/
def State.powerDown (s : State) (cause : DownCause) : State :=
  (s.modSeq fun q => { q.stopTimers with state := .poweringDown 0 .waiting cause, outcome := cause.outcome }).beginDown
    cause 0

/-- The condition of up step `i` is met: SETTLING, or with settle delay 0 the step completes (R77, R79). -/
def State.upConditionMet (s : State) (i : Nat) : State :=
  match s.seq.upList[i]? with
  | none => s
  | some t =>
    if t.settle = 0 then s.beginUp (i + 1)
    else s.modSeq fun q => { q.stopTimers with state := .poweringUp i .settling, settle := some t.settle }

/-- The condition of down step `i` is met, or counts as met (R77, R82). -/
def State.downConditionMet (s : State) (cause : DownCause) (i : Nat) : State :=
  match s.seq.downList[i]? with
  | none => s
  | some t =>
    if t.settle = 0 then s.beginDown cause (i + 1)
    else s.modSeq fun q => { q.stopTimers with state := .poweringDown i .settling cause, settle := some t.settle }

/-! ### Messages -/

/-- Switch `i` has entered ON: it meets the condition of the up step that waits for it (R63, R79). -/
def State.seqSwitchOn (s : State) (i : Fin 8) : State :=
  match s.seq.state with
  | .poweringUp j .waiting => if (s.seq.upList[j]?).map SeqStep.switch = some i then s.upConditionMet j else s
  | .poweringUp _ .settling => s
  | .poweringDown _ _ _ => s
  | .notReady => s
  | .standby => s
  | .running => s

/-- Switch `i` has entered FAILED: in POWERING_UP with its demand ON a power-down begins (R63, R89). -/
def State.seqSwitchFailed (s : State) (i : Fin 8) : State :=
  match s.seq.state with
  | .poweringUp _ _ => if s.switches[i].demand then s.powerDown (.ramp i) else s
  | .poweringDown _ _ _ => s
  | .notReady => s
  | .standby => s
  | .running => s

/-- The Sequencer takes the FAILED messages on their way to it, oldest first (R63, R89; log 26). -/
def State.takeFailures (s : State) : State :=
  s.seq.failed.foldl State.seqSwitchFailed (s.modSeq fun q => { q with failed := [] })

/-- The discharged indicator of switch `i` has changed to `value` (R63, R82). -/
def State.seqIndicator (s : State) (i : Fin 8) (value : Bool) : State :=
  match s.seq.state with
  | .poweringDown j .waiting cause =>
    if value ∧ (s.seq.downList[j]?).map SeqStep.switch = some i then s.downConditionMet cause j else s
  | .poweringDown _ .settling _ => s
  | .poweringUp _ _ => s
  | .notReady => s
  | .standby => s
  | .running => s

/-- Entry `n` has qualified with sequence abort yes (R35, R88). -/
def State.seqAbort (s : State) (n : Fin 32) : State :=
  match s.seq.state with
  | .poweringUp _ _ => s.powerDown (.entry n)
  | .running => s.powerDown (.entry n)
  | .poweringDown _ _ _ => s
  | .notReady => s
  | .standby => s

/-! ### Commands -/

/-- LOAD SEQUENCE (R73, R74). -/
def loadSequenceBody (s : State) : Reply :=
  if !s.ready then s.refuse .notReady
  else if s.seq.state.busy then s.refuse .seqBusy
  else
    match s.seq.staging.firstFailing s.switches with
    | some d => s.refuse .badArgument d
    | none =>
      ⟨s.modSeq fun q =>
        { q with
          upList := q.staging.upSteps.map StagedSeqStep.toStep
          downList := q.staging.downSteps.map StagedSeqStep.toStep }, .ok, 0⟩

/-- POWER UP (R84). -/
def powerUpBody (s : State) : Reply :=
  if !s.ready then s.refuse .notReady
  else
    match s.seq.state with
    | .notReady => s.refuse .notReady
    | .poweringUp _ _ => s.refuse .seqBusy
    | .poweringDown _ _ _ => s.refuse .seqBusy
    | .running => s.refuse .alreadyUp
    | .standby => if s.seq.upList.isEmpty then s.refuse .badArgument else ⟨s.beginUp 0, .accepted, 0⟩

/-- POWER DOWN (R86). -/
def powerDownBody (s : State) : Reply :=
  if !s.ready then s.refuse .notReady
  else
    match s.seq.state with
    | .notReady => s.refuse .notReady
    | .standby => s.refuse .seqIdle
    | .poweringDown _ _ _ => s.refuse .seqBusy
    | .running => ⟨s.powerDown .host, .accepted, 0⟩
    | .poweringUp _ _ => ⟨s.powerDown .host, .accepted, 0⟩

/-! ### Expiries -/

/-- The step-limit timer expires in WAITING of an up step: SEQ_STEP_TIMEOUT, then a power-down (R79). -/
def stepLimitExpiry (s : State) : State :=
  match s.seq.state with
  | .poweringUp i .waiting =>
    match s.seq.upList[i]? with
    | none => s
    | some t =>
      if s.seq.stepLimit.due then
        (s.post .seqStepTimeout (some i) (BitVec.ofNat 16 t.switch.val) 2).powerDown (.timeout i)
      else s
  | .poweringUp _ .settling => s
  | .poweringDown _ _ _ => s
  | .notReady => s
  | .standby => s
  | .running => s

/-- The discharge timer expires in WAITING of a down step: DISCHARGE_TIMEOUT, and the condition counts as met
(R82). -/
def dischargeExpiry (s : State) : State :=
  match s.seq.state with
  | .poweringDown i .waiting cause =>
    match s.seq.downList[i]? with
    | none => s
    | some t =>
      if s.seq.discharge.due then
        (s.post .dischargeTimeout (some t.switch.val) 0 1).downConditionMet cause i
      else s
  | .poweringDown _ .settling _ => s
  | .poweringUp _ _ => s
  | .notReady => s
  | .standby => s
  | .running => s

/-- The settle timer expires and the step completes (R77). -/
def settleExpiry (s : State) : State :=
  if s.seq.settle.due then
    match s.seq.state with
    | .poweringUp i .settling => s.beginUp (i + 1)
    | .poweringDown i .settling cause => s.beginDown cause (i + 1)
    | .poweringUp _ .waiting => s
    | .poweringDown _ .waiting _ => s
    | .notReady => s
    | .standby => s
    | .running => s
  else s

/-- LOAD_SEQUENCE (R73). -/
def execLoadSequence (s : State) : Host.Outcome State Fault Refusal := .next (takeCommand loadSequenceBody s)

/-- POWER_UP (R84). -/
def execPowerUp (s : State) : Host.Outcome State Fault Refusal := .next (takeCommand powerUpBody s)

/-- POWER_DOWN (R86). -/
def execPowerDown (s : State) : Host.Outcome State Fault Refusal := .next (takeCommand powerDownBody s)

/-- STEP_LIMIT_EXPIRY (R79). -/
def execStepLimitExpiry (s : State) : Host.Outcome State Fault Refusal := .next (awake stepLimitExpiry s)

/-- DISCHARGE_TIMER_EXPIRY (R82). -/
def execDischargeTimerExpiry (s : State) : Host.Outcome State Fault Refusal := .next (awake dischargeExpiry s)

/-- SETTLE_TIMER_EXPIRY (R77). -/
def execSettleTimerExpiry (s : State) : Host.Outcome State Fault Refusal := .next (awake settleExpiry s)

end Sys2Proof.Machine
end

