-- ==== Sys2Proof/Machine/Qualify.lean ====
section
/-! DEFINITION. The Qualification Engine (R21 to R49): evaluations, qualification, letting go, RELEASE, CLEAR LOCK, and
the erase completion that clears a lock. -/

namespace Sys2Proof.Machine

/-! ### Qualification -/

/-- The entry's own part of a qualification: LOCKED or ASSERTED, no timer, one more assertion, the capture id
(R10, R30 steps 1, 2, 3 and 8). -/
def Entry.qualified (e : Entry) (id : Byte) : Entry :=
  { e with
    state := if e.config.isLock then .locked else .asserted
    dwellTimer := none
    recoveryTimer := none
    assertions := satSucc8 e.assertions
    lastCapture := some id
    dwellRecord := none }

/-- The events and messages that follow the capture, in order: the hold message, the event, the lock request and the
abort message (R30 steps 4 to 7, R32 to R35). -/
def State.announce (s : State) (n : Fin 32) (id : Byte) : State :=
  let c := s.entries[n].config
  let s1 := if c.mask = 0 then s else s.joinMask (.e n) c.mask
  let s2 := s1.post (if c.isLock then .entryLocked else .entryAsserted) (some n.val) (id.zeroExtend 16) c.classOf
  let s3 := if c.isLock then s2.lockRequest n c.mask else s2
  if c.isAbort then s3.seqAbort n else s3

/-- The qualification of entry `n` completes with the figures of its evaluation or dwell record (R30, R31). -/
def State.qualify (s : State) (n : Fin 32) (d : DwellRecord) : State :=
  let made := s.capture n d
  (made.1.modEntry n fun e => e.qualified made.2).announce n made.2

/-! ### Letting go -/

/-- The causes of ENTRY_RECOVERED as details (R38, R46, R175). -/
inductive RecoverCause where
  | timer | host | service
  deriving DecidableEq, Repr

/-- The detail code of a cause (R175). -/
def RecoverCause.code (c : RecoverCause) : Half :=
  match c with
  | .timer => 1
  | .host => 2
  | .service => 3

/-- The entry in a state with no timer running. -/
def Entry.rest (e : Entry) (x : EntryState) : Entry :=
  { e with state := x, dwellTimer := none, recoveryTimer := none, dwellRecord := none }

/-- An active entry returns to IDLE and its E-holder leaves (R32, R38 steps 1 and 2). -/
def State.letGo (s : State) (n : Fin 32) : State :=
  let c := s.entries[n].config
  let s1 := s.modEntry n fun e => e.rest .idle
  if c.mask = 0 then s1 else s1.leaveMask (.e n) c.mask

/-- ENTRY_RECOVERED is posted with its cause and the entry's class (R38 step 3). -/
def State.postRecovered (s : State) (n : Fin 32) (cause : RecoverCause) : State :=
  s.post .entryRecovered (some n.val) cause.code s.entries[n].config.classOf

/-- The return of an entry to IDLE with its event (R38, R46). -/
def State.recover (s : State) (n : Fin 32) (cause : RecoverCause) : State :=
  (s.letGo n).postRecovered n cause

/-! ### Evaluations -/

/-- An evaluation in IDLE (R26). -/
def State.evaluateIdle (s : State) (n : Fin 32) (trip : Bool) (d : DwellRecord) : State :=
  if trip then
    if s.entries[n].config.dwell = 0 then s.qualify n d
    else s.modEntry n fun e =>
      { e with state := .pending, dwellTimer := some e.config.dwell, dwellRecord := some d }
  else s

/-- An evaluation in PENDING (R27, R10). -/
def State.evaluatePending (s : State) (n : Fin 32) (trip : Bool) (d : DwellRecord) : State :=
  if trip then s.modEntry n fun e => { e with dwellRecord := some d }
  else
    let s1 := s.modEntry n fun e => { e.rest .idle with transients := satSucc8 e.transients }
    let e := s1.entries[n]
    if e.config.isReporting then
      s1.post .entryTransient (some n.val) (e.transients.zeroExtend 16) e.config.classOf
    else s1

/-- An evaluation in ASSERTED (R39). -/
def State.evaluateAsserted (s : State) (n : Fin 32) (recovered : Bool) : State :=
  let c := s.entries[n].config
  if recovered then
    if c.isHostMode then s.modEntry n fun e => e.rest .releasable
    else if c.recoveryTime = 0 then s.recover n .timer
    else s.modEntry n fun e => { e.rest .recovering with recoveryTimer := some e.config.recoveryTime }
  else s

/-- Entry `n` takes an evaluation of source `r`, in its state (R23, R24). An invalid record gives no judgement (R3,
R118). -/
def State.evaluate (s : State) (r : Fin 22) (n : Fin 32) : State :=
  let e := s.entries[n]
  let rec_ := s.records[r]
  if rec_.valid then
    let v := rec_.valueFor e.config
    let d : DwellRecord := { value := v, threshold := s.effectiveTrip e.config, frame := s.scan.frameNumber }
    let trip := tripCondition e.config.isBelow v d.threshold
    let recovered := recoveryCondition e.config.isBelow v (s.effectiveRecovery e.config)
    match e.state with
    | .off => s
    | .idle => s.evaluateIdle n trip d
    | .pending => s.evaluatePending n trip d
    | .asserted => s.evaluateAsserted n recovered
    | .recovering => if recovered then s else s.modEntry n fun x => x.rest .asserted
    | .releasable => if recovered then s else s.modEntry n fun x => x.rest .asserted
    | .locked => s
  else s

/-- The entries that take an evaluation at an update of source `r`: those that name it and are not in OFF (R23). -/
def State.watchers (s : State) (r : Fin 22) : List (Fin 32) :=
  (List.finRange 32).filter fun n =>
    s.entries[n].config.sourceOf == some r && s.entries[n].state != .off

/-! ### Messages of an erase completion -/

/-- The engine takes a lock-cleared message: a LOCKED entry goes to IDLE with cause SERVICE; any other is not moved
(R46). -/
def State.lockCleared (s : State) (n : Fin 32) : State :=
  if s.entries[n].state = .locked then s.recover n .service else s

/-- A block takes a message of an erase completion (R46, R133). -/
def State.receive (s : State) (m : ClearMessage) : State :=
  match m with
  | .engine n => s.lockCleared n
  | .store n => s.unpin n

/-- The messages on their way that `p` names are taken, oldest first. -/
def State.receiveWhere (p : ClearMessage → Bool) (s : State) : State :=
  (s.fault.sent.filter p).foldl State.receive (s.modFault fun f => { f with sent := f.sent.filter fun m => !p m })

/-- A message to the Qualification Engine. -/
def ClearMessage.toEngine (m : ClearMessage) : Bool :=
  match m with
  | .engine _ => true
  | .store _ => false

/-- The engine takes every message on its way to it: it does so before an entry can qualify anew (R131; log 4). -/
def State.receiveEngine (s : State) : State := s.receiveWhere ClearMessage.toEngine

/-- Every message on its way is taken (log 4). -/
def State.receiveAll (s : State) : State := s.receiveWhere fun _ => true

/-! ### Expiries -/

/-- The dwell timer of a PENDING entry expires (R28). -/
def dwellExpiry (n : Fin 32) (s : State) : State :=
  match s.entries[n].dwellRecord with
  | some d => if s.entries[n].state = .pending ∧ s.entries[n].dwellTimer.due then s.receiveEngine.qualify n d else s
  | none => s

/-- The recovery timer of a RECOVERING entry expires (R38, R40). -/
def recoveryExpiry (n : Fin 32) (s : State) : State :=
  if s.entries[n].state = .recovering ∧ s.entries[n].recoveryTimer.due then s.recover n .timer else s

/-! ### RELEASE and CLEAR LOCK -/

/-- RELEASE n (R43). -/
def releaseBody (s : State) : Reply :=
  if !s.ready then s.refuse .notReady
  else
    match numberBelow 32 s.port.arg0 with
    | none => s.refuse .badArgument
    | some n =>
      match s.entries[n].state with
      | .off => s.refuse .notAsserted
      | .idle => s.refuse .notAsserted
      | .pending => s.refuse .notAsserted
      | .asserted => s.refuse .notRecovered
      | .recovering => s.refuse .notRecovered
      | .locked => s.refuse .entryLockHeld
      | .releasable => ⟨s.recover n .host, .ok, 0⟩

/-- The immediate clear of a volatile lock (R47). -/
def State.clearVolatile (s : State) (n : Fin 32) : State :=
  ((s.letGo n).unpin n).postRecovered n .service

/-- The slot becomes ERASING and its erase joins the work list (R145). -/
def FaultMemory.queueErase (f : FaultMemory) (k : Fin 4) : FaultMemory :=
  match f.slots[k] with
  | .valid h b => (f.setSlot k (.erasing h b)).enqueue { kind := .erase, slot := k }
  | .empty _ => f
  | .writing _ _ _ _ => f
  | .erasing _ _ => f

/-- CLEAR LOCK n with the level of the SERVICE line at the take (R144, R145). -/
def clearLockBody (service : Bool) (s : State) : Reply :=
  if !s.ready then s.refuse .notReady
  else
    match numberBelow 32 s.port.arg0 with
    | none => s.refuse .badArgument
    | some n =>
      if !service then s.refuse .notService
      else
        match s.fault.slotNaming n with
        | some k =>
          match s.fault.slots[k] with
          | .valid _ _ => ⟨s.modFault fun f => f.queueErase k, .accepted, BitVec.ofNat 8 k.val⟩
          | .empty _ => s.refuse .lockBusy (BitVec.ofNat 8 k.val)
          | .writing _ _ _ _ => s.refuse .lockBusy (BitVec.ofNat 8 k.val)
          | .erasing _ _ => s.refuse .lockBusy (BitVec.ofNat 8 k.val)
        | none => if s.entries[n].state = .locked then ⟨s.clearVolatile n, .ok, 0⟩ else s.refuse .noLock

/-! ### The erase completion -/

/-- LOCK_CLEARED is posted (R142 step 5). -/
def State.postLockCleared (s : State) (k : Fin 4) (n : Fin 32) : State :=
  s.post .lockCleared (some k.val) (BitVec.ofNat 16 n.val) 2

/-- A message of an erase completion is on its way (R142). -/
def State.send (s : State) (m : ClearMessage) : State := s.modFault fun f => { f with sent := f.sent ++ [m] }

/-- The messages and the event of an erase completion (R142 steps 3 to 5). A free value says whether the engine takes its
message before LOCK_CLEARED is posted, after it, or later, and whether the store takes its own now or later (R46, R133,
R146; log 4). -/
def State.announceClear (s : State) (k : Fin 4) (n : Fin 32) (engine : Fin 3) (later : Bool) : State :=
  let s1 := if engine = 0 then s.lockCleared n else s
  let s2 := if later then s1.send (.store n) else s1.unpin n
  let s3 := s2.postLockCleared k n
  if engine = 1 then s3.lockCleared n else if engine = 2 then s3.send (.engine n) else s3

/-- The unmark phase of an ERASING slot's erase ends: the slot is EMPTY, its K-holder leaves, the messages and the event
follow, and the next item starts (R140, R142; log 4). -/
def eraseComplete (s : State) : State :=
  match s.fault.erasingNow .unmark with
  | some (k, .erase) =>
    match s.fault.slots[k] with
    | .erasing h _ =>
      let s1 := s.modFault fun f => (f.modMedium k fun d => { d with mark := .blank }).setSlot k (.empty false)
      let drawn := (s1.leaveMask (.k k) h.mask).draw Config.freeOrder 5
      let s2 := drawn.2.announceClear k h.entry ⟨drawn.1.val % 3, by omega⟩ (decide (3 ≤ drawn.1.val))
      s2.modFault FaultMemory.finishHead
    | .empty _ => s
    | .writing _ _ _ _ => s
    | .valid _ _ => s
  | some (_, .cleanup) => s
  | some (_, .cleanupThenProgram) => s
  | some (_, .program) => s
  | none => s

/-- RELEASE (R43). -/
def execRelease (s : State) : Host.Outcome State Fault Refusal := .next (takeCommand releaseBody s)

/-- CLEAR_LOCK (R144). -/
def execClearLock (service : Bool) (s : State) : Host.Outcome State Fault Refusal :=
  .next (takeCommand (clearLockBody service) s)

/-- DWELL_EXPIRY (R28). -/
def execDwellExpiry (n : Fin 32) (s : State) : Host.Outcome State Fault Refusal := .next (awake (dwellExpiry n) s)

/-- RECOVERY_EXPIRY (R40). -/
def execRecoveryExpiry (n : Fin 32) (s : State) : Host.Outcome State Fault Refusal :=
  .next (awake (recoveryExpiry n) s)

/-- ERASE_COMPLETE (R142). -/
def execEraseComplete (s : State) : Host.Outcome State Fault Refusal := .next (awake eraseComplete s)

end Sys2Proof.Machine
end

