-- ==== Sys2Proof/Machine/Limit.lean ====
section
/-! DEFINITION. The Limit Table (R1 to R20): LOAD ENTRY, and the application and abandonment of entry loads. -/

namespace Sys2Proof.Machine

/-- The state an applied configuration gives entry `n` (R17 step 5). -/
def State.stateAfterLoad (s : State) (n : Fin 32) (c : EntryConfig) : EntryState :=
  if !c.isEnabled then .off
  else if c.isLock && (s.fault.slotNaming n).isSome then .locked
  else .idle

/-- A load is applied to entry `n` in OFF, IDLE or PENDING (R17). -/
def State.applyLoad (s : State) (n : Fin 32) (c : EntryConfig) : State :=
  let x := s.stateAfterLoad n c
  let s1 := s.modEntry n fun _ => { Entry.default with config := c, state := x }
  let s2 := if x = .locked ∧ c.mask ≠ 0 then s1.joinMask (.e n) c.mask else s1
  s2.post .loadDone (some n.val) 0 0

/-- A load meets an active entry and is abandoned (R18). -/
def State.abandonLoad (s : State) (n : Fin 32) : State :=
  (s.modEntry n fun e => { e with pendingLoad := none }).post .loadAbandoned (some n.val)
    (s.entries[n].state.code.zeroExtend 16) 1

/-- Entry `n` is dealt with at an application moment (R16). -/
def State.dealLoad (s : State) (n : Fin 32) : State :=
  match s.entries[n].pendingLoad with
  | none => s
  | some c => if s.entries[n].state.active then s.abandonLoad n else s.applyLoad n c

/-- The Limit Table deals with the pending loads in ascending entry number (R16). -/
def State.dealLoads (s : State) : State := (List.finRange 32).foldl State.dealLoad s

/-- LOAD ENTRY n (R12 to R15). -/
def loadEntryBody (s : State) : Reply :=
  if !s.ready then s.refuse .notReady
  else
    match numberBelow 32 s.port.arg0 with
    | none => s.refuse .badArgument
    | some n =>
      if s.entries[n].state = .locked then s.refuse .entryLockHeld
      else if s.entries[n].state.active then s.refuse .entryBusy
      else if s.entries[n].pendingLoad.isSome then s.refuse .loadPending
      else
        match s.entryStaging.firstFailing n (fun r => s.entries[r].state == .off) with
        | some field => s.refuse .badEntry (BitVec.ofNat 8 field)
        | none =>
          if (s.fault.slotNaming n).isSome && !(s.entryStaging.isEnabled && s.entryStaging.isLock) then
            s.refuse .entryLockHeld
          else if s.scan.quiet then ⟨s.applyLoad n s.entryStaging, .ok, 0⟩
          else ⟨s.modEntry n fun e => { e with pendingLoad := some s.entryStaging }, .accepted, 0⟩

/-- LOAD_ENTRY (R12). -/
def execLoadEntry (s : State) : Host.Outcome State Fault Refusal := .next (takeCommand loadEntryBody s)

end Sys2Proof.Machine
end

