-- ==== Sys2Proof/Machine/SwitchControl.lean ====
section
/-! DEFINITION. What the Switch Controller does with readings, timers, its commands and the trip line, and what it tells
the Sequencer (R52, R53, R57, R60, R63, R64, R68, R69). -/

namespace Sys2Proof.Machine

/-- The switch takes a good-channel sample (R57, R58, R59): a RAMPING switch at or above its good threshold enters ON,
and the Sequencer is informed, once it has taken what it was told before (R63; log 26). -/
def State.goodSample (s : State) (i : Fin 8) (latest : Reading) : State :=
  if s.switches[i].state = .ramping ∧ s.switches[i].config.goodThreshold.toInt ≤ latest.toInt then
    (s.modSwitch i fun w => w.enter .on).takeFailures.seqSwitchOn i
  else s

/-- The discharged indicator of a switch takes a value; a change is passed to the Sequencer (R63, R64). -/
def State.setIndicator (s : State) (i : Fin 8) (value : Bool) : State :=
  if s.switches[i].discharged = value then s
  else (s.modSwitch i fun w => { w with discharged := value }).seqIndicator i value

/-- The switch takes an update of its good channel that leaves the record valid: its good-channel sample, unless its gate was
energised after the update, and its indicator (R56, R57, R64, R115). An invalid record gives no good check and an indicator
of false (R118). -/
def State.watch (s : State) (ch : Fin 18) (i : Fin 8) (good : Bool) : State :=
  let r := s.records[channelSource ch]
  if r.valid then
    (if good then s.goodSample i r.latest else s).setIndicator i
      (decide (r.latest.toInt ≤ s.switches[i].config.offThreshold.toInt))
  else s.setIndicator i false

/-- The switches whose good channel is `ch` (R115, R117). -/
def State.switchesOn (s : State) (ch : Fin 18) : List (Fin 8) :=
  (List.finRange 8).filter fun i => s.switches[i].config.channelOf == some ch

/-- A channel's record has been invalidated: every switch that watches it sets its indicator false (R64, R117). -/
def State.indicatorsFalse (s : State) (ch : Fin 18) : State :=
  (s.switchesOn ch).foldl (fun t i => t.setIndicator i false) s

/-- Switch `i` enters FAILED: SWITCH_RAMP_FAIL is posted and the Sequencer is sent a message (R57, R63). -/
def State.failSwitch (s : State) (i : Fin 8) : State :=
  ((s.modSwitch i fun w => w.enter .failed).post .switchRampFail (some i.val) 0 2).modSeq fun q =>
    { q with failed := q.failed ++ [i] }

/-- The ramp timer of a RAMPING switch expires (R57). A free value says whether the Sequencer takes the message at once or
later, so that a step-limit expiry may come between (R80; log 26). -/
def rampExpiry (i : Fin 8) (s : State) : State :=
  if s.switches[i].state = .ramping ∧ s.switches[i].rampTimer.due then
    let drawn := (s.failSwitch i).draw Config.freeOrder 1
    if drawn.1 = 0 then drawn.2.takeFailures else drawn.2
  else s

/-- A switch is named in a list in force (R52 check 4). -/
def Sequencer.lists (q : Sequencer) (i : Fin 8) : Bool :=
  q.upList.any (fun t => t.switch == i) || q.downList.any (fun t => t.switch == i)

/-- The X membership of a hold set at a LOAD SWITCH (R53 step 2). -/
def HoldSet.withX (set : HoldSet) (member : Bool) : HoldSet :=
  if member then set ||| Holder.x.mark else set &&& ~~~Holder.x.mark

/-- The configuration and X membership that an accepted LOAD SWITCH gives (R53 steps 1 and 2): the switch is in OFF, so
its state does not move. -/
def Switch.loaded (w : Switch) (c : SwitchConfig) (tripSeen : Bool) : Switch :=
  { w with config := c, holds := HoldSet.withX w.holds (c.obeysTrip && tripSeen) }

/-- The indicator that a LOAD SWITCH recomputes from the new good channel's record (R53 step 3, R64); free where the
byte names no channel, which only a disabled record may hold (R52; log 6). -/
def State.loadIndicator (s : State) (i : Fin 8) : State :=
  let c := s.switches[i].config
  match c.channelOf with
  | some ch =>
    let r := s.records[channelSource ch]
    s.setIndicator i (r.valid && decide (r.latest.toInt ≤ c.offThreshold.toInt))
  | none => { s with choice := s.choice + 1 }.setIndicator i (Config.freeIndicator s.choice)

/-- LOAD SWITCH s (R52, R53). -/
def loadSwitchBody (s : State) : Reply :=
  if !s.ready then s.refuse .notReady
  else
    match numberBelow 8 s.port.arg0 with
    | none => s.refuse .badArgument
    | some i =>
      if s.switches[i].state ≠ .off then s.refuse .switchBusy
      else if !s.switchStaging.isEnabled && s.seq.lists i then s.refuse .switchBusy
      else if s.switchStaging.fails then s.refuse .badArgument
      else ⟨(s.modSwitch i fun w => w.loaded s.switchStaging s.trip.seen).loadIndicator i, .ok, 0⟩

/-- RESTART SWITCH s (R59, R60). -/
def restartSwitchBody (s : State) : Reply :=
  if !s.ready then s.refuse .notReady
  else
    match numberBelow 8 s.port.arg0 with
    | none => s.refuse .badArgument
    | some i =>
      match s.switches[i].state with
      | .off => s.refuse .switchState
      | .ramping => s.refuse .switchState
      | .on => s.refuse .switchState
      | .blocked => s.refuse .switchState
      | .tripped => ⟨s.modSwitch i Switch.restart, .ok, 0⟩
      | .failed => ⟨s.modSwitch i Switch.restart, .ok, 0⟩

/-- X joins, or leaves, every switch whose trip response is yes (R68). -/
def State.tripHolds (s : State) (seen : Bool) : State :=
  s.mapSwitches fun _ w => if w.config.obeysTrip then (if seen then w.join .x else w.leave .x) else w

/-- TRIP_N has been low for tTRIPF: the seen state becomes asserted, X joins, and TRIP_LINE_ASSERTED is posted unless
the line has been low continuously from the end of reset (R68, R69). -/
def tripAssert (lowSinceReset : Bool) (s : State) : State :=
  if s.trip.seen then s
  else
    let s1 := { s with trip := { seen := true, lowAtResetEnd := false } }.tripHolds true
    if lowSinceReset && s.trip.lowAtResetEnd then s1 else s1.post .tripLineAsserted none 0 3

/-- TRIP_N has been high for tTRIPF: the seen state becomes released, X leaves, and TRIP_LINE_RELEASED is posted
(R68). -/
def tripRelease (s : State) : State :=
  if s.trip.seen then
    ({ s with trip := { seen := false, lowAtResetEnd := false } }.tripHolds false).post .tripLineReleased none 0 1
  else s

/-- LOAD_SWITCH (R52). -/
def execLoadSwitch (s : State) : Host.Outcome State Fault Refusal := .next (takeCommand loadSwitchBody s)

/-- RESTART_SWITCH (R60). -/
def execRestartSwitch (s : State) : Host.Outcome State Fault Refusal := .next (takeCommand restartSwitchBody s)

/-- RAMP_TIMER_EXPIRY (R57). -/
def execRampTimerExpiry (i : Fin 8) (s : State) : Host.Outcome State Fault Refusal := .next (awake (rampExpiry i) s)

/-- TRIP_FILTER_ASSERT (R68, R69). -/
def execTripFilterAssert (lowSinceReset : Bool) (s : State) : Host.Outcome State Fault Refusal :=
  .next (awake (tripAssert lowSinceReset) s)

/-- TRIP_FILTER_RELEASE (R68). -/
def execTripFilterRelease (s : State) : Host.Outcome State Fault Refusal := .next (awake tripRelease s)

end Sys2Proof.Machine
end

