-- ==== Sys2Proof/Machine/Measure.lean ====
section
/-! DEFINITION. The Measurement Table (R113 to R126): readings, record updates, invalidation, derived channels, CLEAR
MINMAX, and the messages an update sends. -/

namespace Sys2Proof.Machine

/-! ### Readings and records -/

/-- The reading of a raw code before saturation (R114 steps 1 to 3). -/
def ChannelConfig.convert (c : ChannelConfig) (code : RawCode) : Int :=
  ((code.toNat * c.gain.toNat / 4096 : Nat) : Int) + c.offset.toInt

/-- The average moved toward a reading by 1/2^k of the gap, truncated toward zero (R116). -/
def movedAverage (average r : Reading) (k : Nat) : Reading :=
  BitVec.ofInt 16 (average.toInt + (r.toInt - average.toInt).tdiv (2 ^ k))

/-- The smaller reading. -/
def minReading (x y : Reading) : Reading := if x.toInt ≤ y.toInt then x else y

/-- The larger reading. -/
def maxReading (x y : Reading) : Reading := if x.toInt ≤ y.toInt then y else x

/-- A sample updates a record (R115, R116); a derived sample also clears the stale field (R123). -/
def MeasRecord.sample (m : MeasRecord) (value : Int) (k : Nat) (frame : Word) : MeasRecord :=
  let r := saturate value
  if m.valid then
    { m with
      latest := r
      average := movedAverage m.average r k
      minimum := minReading r m.minimum
      maximum := maxReading r m.maximum
      sampleFrame := frame
      clipped := isClipped value
      count := satSucc16 m.count
      stale := false }
  else
    { valid := true, latest := r, average := r, minimum := r, maximum := r, sampleFrame := frame,
      clipped := isClipped value, count := 1, stale := false }

/-- A record invalidated (R117). -/
def MeasRecord.invalidated (m : MeasRecord) : MeasRecord := { m with valid := false, count := 0, clipped := false }

/-- A channel's record is invalidated and the Switch Controller informed (R117). -/
def State.invalidate (s : State) (ch : Fin 18) : State :=
  (s.modRecord (channelSource ch) MeasRecord.invalidated).indicatorsFalse ch

/-- CLEAR MINMAX (R119). -/
def clearMinmaxBody (s : State) : Reply :=
  if !s.ready then s.refuse .notReady
  else
    match numberBelow 22 s.port.arg0 with
    | none => s.refuse .badArgument
    | some r =>
      if s.records[r].valid then
        ⟨s.modRecord r fun m => { m with minimum := m.latest, maximum := m.latest }, .ok, 0⟩
      else ⟨s, .ok, 0⟩

/-! ### The messages of an update -/

/-- The events at the blocks that one step or frame end brings about: an update of a channel's record by a raw code, an
entry's evaluation, and a switch's sample, which makes a good check while `good` stands (R23, R25, R56, R115). Each is
taken whole. -/
inductive Message where
  | update (ch : Fin 18) (code : RawCode)
  | evaluate (r : Fin 22) (n : Fin 32)
  | watch (ch : Fin 18) (i : Fin 8) (good : Bool)
  deriving DecidableEq, Repr

/-- The messages that the update of a channel's record sends (R115). -/
def State.updateMessages (s : State) (ch : Fin 18) : List Message :=
  (s.watchers (channelSource ch)).map (Message.evaluate (channelSource ch)) ++
    (s.switchesOn ch).map fun i => Message.watch ch i true

/-- One message is taken: the state after it, and the messages it sends. -/
def State.take (s : State) (m : Message) : State × List Message :=
  match m with
  | .update ch code =>
    let c := s.scan.channels[ch]
    let s1 := s.modRecord (channelSource ch) fun x => x.sample (c.convert code) c.weight.val s.scan.frameNumber
    (s1, s1.updateMessages ch)
  | .evaluate r n => (s.evaluate r n, [])
  | .watch ch i good => (s.watch ch i good, [])

/-- The message taken next, and those that still wait: the only one, or where several wait, the one a free value
picks (R25; log 3). -/
def State.pick (s : State) (m : Message) (rest : List Message) : (Message × List Message) × State :=
  match rest with
  | [] => ((m, []), s)
  | _ :: _ =>
    let drawn := s.draw Config.freeOrder rest.length
    (((m :: rest).getD drawn.1.val m, (m :: rest).eraseIdx drawn.1.val), drawn.2)

/-- A waiting message after one that took the part from `s` to `t`: the sample of a switch whose gate was energised between
makes no good check, since its channel has not been sampled again (R56). -/
def Message.after (s t : State) (m : Message) : Message :=
  match m with
  | .update ch code => .update ch code
  | .evaluate r n => .evaluate r n
  | .watch ch i good => .watch ch i (good && (s.switches[i].state == .ramping || t.switches[i].state != .ramping))

/-- The waiting messages are taken one after the other until none waits. `fuel` bounds how many. -/
def drain : Nat → List Message → State → State
  | 0, _, s => s
  | _ + 1, [], s => s
  | fuel + 1, m :: rest, s =>
    let p := s.pick m rest
    let t := p.2.take p.1.1
    drain fuel (p.1.2.map (Message.after p.2 t.1) ++ t.2) t.1

/-- How many messages a message stands for: an update sends at most one to each of 32 entries and 8 switches. -/
def Message.weight (m : Message) : Nat :=
  match m with
  | .update _ _ => 41
  | .evaluate _ _ => 1
  | .watch _ _ _ => 1

/-- All the messages are taken, in an order the free values give (R25, R115; log 3). -/
def State.takeAll (s : State) (l : List Message) : State := drain (l.map Message.weight).sum l s

/-! ### Derived channels -/

/-- The derived configurations brought into force at a frame start; one that changes invalidates its record (R121). -/
def State.derivedIntoForce (s : State) (d : Fin 4) : State :=
  let c := s.derivedWritten[d].checked
  if c = s.derivedInForce[d] then s
  else { s with derivedInForce := s.derivedInForce.set d c }.modRecord (derivedSource d) MeasRecord.invalidated

/-- The frame-start work of the Measurement Table (R121). -/
def State.derivedFrameStart (s : State) : State := (List.finRange 4).foldl State.derivedIntoForce s

/-- The value of a derived channel before saturation (R122). -/
def DerivedOp.value (op : DerivedOp) (a b : Int) : Int :=
  match op with
  | .none => 0
  | .sum => a + b
  | .difference => a - b
  | .product => (a * b).tdiv 1000
  | .maxOf => max a b
  | .minOf => min a b

/-- The latest reading of an operand sampled in the frame that ends, or none (R123). -/
def State.operand (s : State) (b : Byte) : Option Int :=
  match numberBelow 18 b with
  | none => none
  | some ch =>
    let r := s.records[channelSource ch]
    if r.valid ∧ r.sampleFrame = s.scan.frameNumber then some r.latest.toInt else none

/-- The frame end deals with a derived channel: not computed, computed as a sample, or stale (R123). The flag says
whether its record was updated. -/
def State.deriveOne (s : State) (d : Fin 4) : State × Bool :=
  let c := s.derivedInForce[d]
  if c.op = .none then (s, false)
  else
    match s.operand c.a, s.operand c.b with
    | some a, some b =>
      (s.modRecord (derivedSource d) fun m => m.sample (c.op.value a b) c.weight.toNat s.scan.frameNumber, true)
    | some _, none => (s.modRecord (derivedSource d) fun m => { m with stale := true }, false)
    | none, _ => (s.modRecord (derivedSource d) fun m => { m with stale := true }, false)

/-- The derived channels in turn, with the evaluations their updates send (R123). -/
def deriveFrom : List (Fin 4) → State → State × List Message
  | [], s => (s, [])
  | d :: rest, s =>
    let t := s.deriveOne d
    let here := if t.2 then (t.1.watchers (derivedSource d)).map (Message.evaluate (derivedSource d)) else []
    let after := deriveFrom rest t.1
    (after.1, here ++ after.2)

/-- The frame end at the Measurement Table: the derived channels, then the evaluations on them (R107, R123; log 3). -/
def State.derivedFrameEnd (s : State) : State :=
  let t := deriveFrom (List.finRange 4) s
  t.1.takeAll t.2

/-- CLEAR_MINMAX (R119). -/
def execClearMinmax (s : State) : Host.Outcome State Fault Refusal := .next (takeCommand clearMinmaxBody s)

end Sys2Proof.Machine
end

