-- ==== Sys2Proof/Machine/Scan.lean ====
section
/-! DEFINITION. The Scan Unit (R94 to R112): its loads, modes and triggers, frames and steps. -/

namespace Sys2Proof.Machine

/-! ### Loads -/

/-- A Scan List is applied (R100): the records of the channels it does not contain are invalidated. -/
def State.applyList (s : State) (l : List ScanStep) : State :=
  ((List.finRange 18).filter fun ch => !(listChannels l).contains ch).foldl State.invalidate
    (s.modScan fun u => { u with list := l, stepIndex := 0, pendingList := none })

/-- A channel load is applied (R97). -/
def State.applyChannel (s : State) (ch : Fin 18) (c : ChannelConfig) : State :=
  (s.modScan fun u => { u with channels := u.channels.set ch c, pendingChannel := none }).invalidate ch

/-- The pending loads of the Scan Unit are applied: the list, then the channel (R105, R108). -/
def State.applyScanLoads (s : State) : State :=
  let s1 := match s.scan.pendingList with
    | none => s
    | some l => s.applyList l
  match s1.scan.pendingChannel with
  | none => s1
  | some (ch, c) => s1.applyChannel ch c

/-- The staged channel record as a record that may be in force, once its checks have passed (R97). -/
def ChannelStaging.toConfig (c : ChannelStaging) (kind : ChannelKind) : ChannelConfig :=
  { kind := kind, gain := c.gain, offset := c.offset, weight := ⟨c.weight.toNat % 8, Nat.mod_lt _ (by decide)⟩ }

/-- LOAD SCAN LIST (R99, R100). -/
def loadScanListBody (s : State) : Reply :=
  if !s.ready then s.refuse .notReady
  else if s.scan.pendingList.isSome then s.refuse .loadPending
  else
    match s.scan.staging.firstFailing with
    | some d => s.refuse .badArgument d
    | none =>
      let l := s.scan.staging.listed.map StagedScanStep.toStep
      if s.scan.quiet then ⟨s.applyList l, .ok, 0⟩
      else ⟨s.modScan fun u => { u with pendingList := some l }, .accepted, 0⟩

/-- LOAD CHANNEL n (R96, R97). -/
def loadChannelBody (s : State) : Reply :=
  if !s.ready then s.refuse .notReady
  else
    match numberBelow 18 s.port.arg0 with
    | none => s.refuse .badArgument
    | some ch =>
      if s.scan.pendingChannel.isSome then s.refuse .loadPending
      else
        match ChannelKind.ofByte s.scan.channelStaging.kind with
        | none => s.refuse .badArgument 1
        | some kind =>
          if 7 < s.scan.channelStaging.weight.toNat then s.refuse .badArgument 4
          else
            let c := s.scan.channelStaging.toConfig kind
            if s.scan.quiet then ⟨s.applyChannel ch c, .ok, 0⟩
            else ⟨s.modScan fun u => { u with pendingChannel := some (ch, c) }, .accepted, 0⟩

/-! ### Frames -/

/-- A frame starts: pending loads, the frame number, the Limit Table and the Measurement Table, and step 0 (R105). -/
def State.frameStart (s : State) : State :=
  let s1 := s.applyScanLoads.modScan fun u => { u with frameNumber := u.frameNumber + 1 }
  s1.dealLoads.derivedFrameStart.modScan fun u => { u with scanning := true, stepIndex := 0, sampled := none }

/-- The Scan Unit becomes quiet (R108). -/
def State.becomeQuiet (s : State) : State := s.applyScanLoads.dealLoads

/-- A trigger is taken (R104). The code is SCAN NOW's detail: 0 a frame started, 1 the flag was set, 2 the trigger was
dropped (R103). -/
def State.trigger (s : State) : State × Byte :=
  if !s.scan.scanning then (s.frameStart, 0)
  else if !s.scan.pendingTrigger then (s.modScan fun u => { u with pendingTrigger := true }, 1)
  else (s.post .scanOverrun none (s.scan.frameNumber.setWidth 16) 1, 2)

/-- The frame end (R107). -/
def State.frameEnd (s : State) : State :=
  let s1 := s.derivedFrameEnd.modScan fun u => { u with scanning := false, stepIndex := 0, sampled := none }
  if s1.scan.pendingTrigger then (s1.modScan fun u => { u with pendingTrigger := false }).frameStart
  else if s1.scan.mode = .stopped then s1.becomeQuiet
  else s1

/-- The codes a step hands over: one for each channel it holds (R106). -/
def stepUpdates (t : ScanStep) (x : StepCodes) : List Message :=
  [t.a.map fun ch => Message.update ch x.a, t.b.map fun ch => Message.update ch x.b,
    t.c.map fun ch => Message.update ch x.c].filterMap id

/-- The updates of the step that completes, with the messages they send (R106, R115; log 3). -/
def State.handOver (s : State) (x : StepCodes) : State :=
  match s.scan.list[s.scan.stepIndex]? with
  | none => s
  | some t => s.takeAll (stepUpdates t x)

/-- A step completes: its codes are handed over, and the next step begins or the frame end follows (R106). Messages on their
way to the engine are taken first (log 4). -/
def scanStepComplete (s : State) : State :=
  match s.scan.sampled with
  | none => s
  | some x =>
    if s.scan.scanning then
      let s1 := s.receiveEngine.handOver x
      if s.scan.stepIndex + 1 < s.scan.list.length then
        s1.modScan fun u => { u with stepIndex := u.stepIndex + 1, sampled := none }
      else s1.frameEnd
    else s

/-- The settle time of the step in progress ends and the converters sample together (R94, R106). -/
def scanStepSample (x : StepCodes) (s : State) : State :=
  if s.scan.scanning && s.scan.sampled.isNone then s.modScan fun u => { u with sampled := some x } else s

/-! ### Modes, period and triggers -/

/-- SCAN NOW (R103). -/
def scanNowBody (s : State) : Reply :=
  if !s.ready then s.refuse .notReady
  else ⟨s.trigger.1, .ok, s.trigger.2⟩

/-- The mode changes (R101). -/
def State.setMode (s : State) (m : ScanMode) : State :=
  match m with
  | .timed => s.modScan fun u => { u with mode := .timed, frameTimer := some u.period.toNat }
  | .sync => s.modScan fun u => { u with mode := .sync, frameTimer := none }
  | .stopped =>
    let s1 := s.modScan fun u => { u with mode := .stopped, frameTimer := none, pendingTrigger := false }
    if s1.scan.scanning then s1 else s1.becomeQuiet

/-- A byte taken at SCAN_MODE (R101, R173). -/
def writeScanMode (value : Byte) (s : State) : State :=
  match ScanMode.ofByte value with
  | none => s
  | some m => if !s.ready || s.scan.mode == m then s else s.setMode m

/-- A byte taken at the low byte of FRAME_PERIOD is held aside (R173). -/
def writePeriodLow (value : Byte) (s : State) : State :=
  if s.ready then s.modPort fun p => { p with heldLow := some value } else s

/-- The frame period that a high byte completes (R173). -/
def State.newPeriod (s : State) (high : Byte) : Half := high ++ (s.port.heldLow.getD (byteOf s.scan.period 0))

/-- A byte taken at the high byte of FRAME_PERIOD (R102, R173). -/
def writePeriodHigh (value : Byte) (s : State) : State :=
  if s.ready then
    let v := s.newPeriod value
    let s1 := s.modPort fun p => { p with heldLow := none }
    if v.toNat < 10 then s1 else s1.modScan fun u => { u with period := v }
  else s

/-- A rising edge of SYNC: a trigger in SYNC mode (R103). -/
def syncEdge (s : State) : State := if s.scan.mode = .sync then s.trigger.1 else s

/-- The frame timer expires before the next tick of the time base: fewer than ten of its 0.1 ms units are left (R102;
log 8). -/
def ScanUnit.timerDue (u : ScanUnit) : Bool :=
  match u.frameTimer with
  | none => false
  | some left => decide (left < 10)

/-- The frame timer's next expiry is one period in force after the one it stands at, whenever that one is taken: late
expiries do not shift the next (R102). -/
def ScanUnit.reloadTimer (u : ScanUnit) : ScanUnit :=
  { u with frameTimer := u.frameTimer.map fun left => left + u.period.toNat }

/-- The frame timer expires: it reloads with the period in force and gives a trigger (R102, R104). -/
def frameTimerExpiry (s : State) : State :=
  if s.scan.mode = .timed ∧ s.scan.timerDue then
    (s.modScan ScanUnit.reloadTimer).trigger.1
  else s

/-- SCAN_NOW (R103). -/
def execScanNow (s : State) : Host.Outcome State Fault Refusal := .next (takeCommand scanNowBody s)

/-- LOAD_SCAN_LIST (R99). -/
def execLoadScanList (s : State) : Host.Outcome State Fault Refusal := .next (takeCommand loadScanListBody s)

/-- LOAD_CHANNEL (R96). -/
def execLoadChannel (s : State) : Host.Outcome State Fault Refusal := .next (takeCommand loadChannelBody s)

/-- SCAN_MODE_WRITE (R101). -/
def execScanModeWrite (value : Byte) (s : State) : Host.Outcome State Fault Refusal :=
  .next (takeWrite 0x11 (writeScanMode value) s)

/-- FRAME_PERIOD_LOW_WRITE (R173). -/
def execFramePeriodLowWrite (value : Byte) (s : State) : Host.Outcome State Fault Refusal :=
  .next (takeWrite 0x12 (writePeriodLow value) s)

/-- FRAME_PERIOD_HIGH_WRITE (R102, R173). -/
def execFramePeriodHighWrite (value : Byte) (s : State) : Host.Outcome State Fault Refusal :=
  .next (takeWrite 0x13 (writePeriodHigh value) s)

/-- SYNC_EDGE (R103). -/
def execSyncEdge (s : State) : Host.Outcome State Fault Refusal := .next (awake syncEdge s)

/-- FRAME_TIMER_EXPIRY (R102). -/
def execFrameTimerExpiry (s : State) : Host.Outcome State Fault Refusal := .next (awake frameTimerExpiry s)

/-- SCAN_STEP_SAMPLE (R106). -/
def execScanStepSample (a b c : RawCode) (s : State) : Host.Outcome State Fault Refusal :=
  .next (awake (scanStepSample { a := a, b := b, c := c }) s)

/-- SCAN_STEP_COMPLETE (R106). -/
def execScanStepComplete (s : State) : Host.Outcome State Fault Refusal := .next (awake scanStepComplete s)

end Sys2Proof.Machine
end

