-- ==== Sys2Proof/Machine/Window.lean ====
section
/-! DEFINITION. The register window as the host reads and writes it (R172 to R180): the byte at each address, the
multi-byte fields, and the bytes a write stores. -/

namespace Sys2Proof.Machine

/-! ### Layouts of the pages -/

/-- An entry readback page: the configuration in force and the run state (R177). -/
def Entry.byte (e : Entry) (off : Nat) : Byte :=
  match off with
  | 0x20 => e.state.code
  | 0x21 => BitVec.ofBool e.lastCapture.isSome ++ BitVec.ofBool e.pendingLoad.isSome |>.zeroExtend 8
  | 0x22 => e.lastCapture.getD 0
  | 0x23 => e.assertions
  | 0x24 => e.transients
  | 0x26 => byteOf e.dwellTimer.shown 0
  | 0x27 => byteOf e.dwellTimer.shown 1
  | 0x28 => byteOf e.recoveryTimer.shown 0
  | 0x29 => byteOf e.recoveryTimer.shown 1
  | _ => e.config.byte off

/-- The record part of a measurement record page (R178). -/
def MeasRecord.byte (m : MeasRecord) (off : Nat) : Byte :=
  match off with
  | 0x00 => BitVec.ofBool m.stale ++ BitVec.ofBool m.clipped ++ BitVec.ofBool m.valid |>.zeroExtend 8
  | 0x02 => byteOf m.latest 0
  | 0x03 => byteOf m.latest 1
  | 0x04 => byteOf m.average 0
  | 0x05 => byteOf m.average 1
  | 0x06 => byteOf m.minimum 0
  | 0x07 => byteOf m.minimum 1
  | 0x08 => byteOf m.maximum 0
  | 0x09 => byteOf m.maximum 1
  | 0x0A => byteOf m.sampleFrame 0
  | 0x0B => byteOf m.sampleFrame 1
  | 0x0C => byteOf m.sampleFrame 2
  | 0x0D => byteOf m.sampleFrame 3
  | 0x0E => byteOf m.count 0
  | 0x0F => byteOf m.count 1
  | _ => 0

/-- The configuration in force on a channel's page (R178). -/
def ChannelConfig.byte (c : ChannelConfig) (off : Nat) : Byte :=
  match off with
  | 0x10 => c.kind.code
  | 0x12 => byteOf c.gain 0
  | 0x13 => byteOf c.gain 1
  | 0x14 => byteOf c.offset 0
  | 0x15 => byteOf c.offset 1
  | 0x16 => BitVec.ofNat 8 c.weight.val
  | _ => 0

/-- The configuration in force on a derived channel's page (R178). -/
def DerivedConfig.byte (c : DerivedConfig) (off : Nat) : Byte :=
  match off with
  | 0x10 => c.op.code
  | 0x11 => c.a
  | 0x12 => c.b
  | 0x13 => c.weight
  | _ => 0

/-- A switch status page (R180). -/
def Switch.byte (w : Switch) (off : Nat) : Byte :=
  match off with
  | 0x10 => BitVec.ofBool w.demand |>.zeroExtend 8
  | 0x11 => w.state.code
  | 0x12 => BitVec.ofBool w.discharged |>.zeroExtend 8
  | 0x14 => byteOf w.rampTimer.shown 0
  | 0x15 => byteOf w.rampTimer.shown 1
  | 0x18 => byteOf w.holds 0
  | 0x19 => byteOf w.holds 1
  | 0x1A => byteOf w.holds 2
  | 0x1B => byteOf w.holds 3
  | 0x1C => byteOf w.holds 4
  | _ => w.config.byte off

/-- A step of a sequence list as timing bytes (R180). -/
def SeqStep.timing (t : SeqStep) (j : Nat) : Byte :=
  match j with
  | 0 => byteOf t.settle 0
  | 1 => byteOf t.settle 1
  | 2 => byteOf t.limit 0
  | _ => byteOf t.limit 1

/-- A page of a sequence list in force; steps beyond the length read 0 (R180). -/
def seqListByte (l : List SeqStep) (part off : Nat) : Byte :=
  match part with
  | 0 =>
    match l[off / 4]? with
    | some t => t.timing (off % 4)
    | none => 0
  | 1 =>
    if off = 0 then BitVec.ofNat 8 l.length
    else if 0x10 ≤ off ∧ off < 0x20 then
      match l[off - 0x10]? with
      | some t => BitVec.ofNat 8 t.switch.val
      | none => 0
    else 0
  | _ => 0

/-- A converter's channel byte: 0xFF where absent (R180). -/
def channelByte (c : Option (Fin 18)) : Byte :=
  match c with
  | some ch => BitVec.ofNat 8 ch.val
  | none => 0xFF

/-- The page of the Scan List in force; steps beyond the length read 0 (R180). -/
def scanListByte (l : List ScanStep) (off : Nat) : Byte :=
  if off = 0 then BitVec.ofNat 8 l.length
  else if 4 ≤ off ∧ off < 52 then
    match l[(off - 4) / 4]? with
    | none => 0
    | some t =>
      match (off - 4) % 4 with
      | 0 => channelByte t.a
      | 1 => channelByte t.b
      | 2 => channelByte t.c
      | _ => BitVec.ofNat 8 t.settle.val
  else 0

/-- Companion bytes of a slot or capture page, from the first group at 0x0C: channel, 0, reading (R179). -/
def companionByte (l : List Companion) (j : Nat) : Byte :=
  match l[j / 4]? with
  | none => 0
  | some c =>
    match j % 4 with
    | 0 => BitVec.ofNat 8 c.channel.val
    | 1 => 0
    | 2 => byteOf c.reading 0
    | _ => byteOf c.reading 1

/-- The figures a slot page and a capture page share (R179). -/
def LockBody.byte (b : LockBody) (off : Nat) : Byte :=
  match off with
  | 0x06 => b.captureId
  | 0x07 => BitVec.ofNat 8 b.companions.length
  | 0x08 => byteOf b.trigger 0
  | 0x09 => byteOf b.trigger 1
  | 0x0A => byteOf b.threshold 0
  | 0x0B => byteOf b.threshold 1
  | _ => if 0x0C ≤ off ∧ off < 0x18 then companionByte b.companions (off - 0x0C) else 0

/-- A capture page's record (R135, R179). -/
def CaptureRecord.byte (r : CaptureRecord) (off : Nat) : Byte :=
  match off with
  | 0x00 => BitVec.ofBool r.pinned ++ (1#1) |>.zeroExtend 8
  | 0x02 => BitVec.ofNat 8 r.entry.val
  | 0x18 => byteOf r.timestamp 0
  | 0x19 => byteOf r.timestamp 1
  | 0x1A => byteOf r.timestamp 2
  | 0x1B => byteOf r.timestamp 3
  | 0x1C => byteOf r.frame 0
  | 0x1D => byteOf r.frame 1
  | 0x1E => byteOf r.frame 2
  | 0x1F => byteOf r.frame 3
  | _ => r.lockBody.byte off

/-- The cleanup mark of a slot (R139). -/
def SlotView.cleanup (v : SlotView) : Bool :=
  match v with
  | .empty c => c
  | .writing _ _ _ _ => false
  | .valid _ _ => false
  | .erasing _ _ => false

/-- The body a slot page shows: in WRITING, and with the body present in VALID and ERASING (R150; log 14). -/
def SlotView.bodyShown (v : SlotView) : Option LockBody :=
  match v with
  | .empty _ => none
  | .writing _ _ _ b => some b
  | .valid _ b => b
  | .erasing _ b => b

/-- The entry, mask and serial a slot page shows; a serial of 0 in WRITING before the serial phase (R150, R179). -/
def SlotView.headerShown (v : SlotView) : Option LockHeader :=
  match v with
  | .empty _ => none
  | .writing e m x _ => some { entry := e, mask := m, serial := x.getD 0 }
  | .valid h _ => some h
  | .erasing h _ => some h

/-- The slot's item is in flight (R150). -/
def FaultMemory.inFlight (f : FaultMemory) (k : Fin 4) : Bool :=
  f.phase.isSome && (f.work.head?.map WorkItem.slot == some k)

/-- The slot's item waits (R150). -/
def FaultMemory.waiting (f : FaultMemory) (k : Fin 4) : Bool :=
  f.work.any (fun i => i.slot == k) && !f.inFlight k

/-- A slot page; an EMPTY slot shows its state and cleanup mark alone (R150, R179). -/
def FaultMemory.slotByte (f : FaultMemory) (k : Fin 4) (off : Nat) : Byte :=
  let v := f.slots[k]
  match off with
  | 0x00 => v.code
  | 0x01 =>
    BitVec.ofBool (v.nonEmpty && f.waiting k) ++ BitVec.ofBool (v.nonEmpty && f.inFlight k) ++
      BitVec.ofBool v.bodyShown.isSome ++ BitVec.ofBool v.cleanup |>.zeroExtend 8
  | 0x02 => (v.headerShown.map fun h => BitVec.ofNat 8 h.entry.val).getD 0
  | 0x03 => (v.headerShown.map LockHeader.mask).getD 0
  | 0x04 => (v.headerShown.map fun h => byteOf h.serial 0).getD 0
  | 0x05 => (v.headerShown.map fun h => byteOf h.serial 1).getD 0
  | _ => (v.bodyShown.map fun b => b.byte off).getD 0

/-- The pages that have parts 1 and 2 (R176, R180). -/
def isSequencePage (page : Nat) : Bool := page == 0x41 || page == 0x42 || page == 0x43

/-- The byte at an offset of a part of a page (R176); 0 for a part the page does not have, and for an unused page. -/
def State.pageByte (s : State) (page part off : Nat) : Byte :=
  if part ≠ 0 ∧ !isSequencePage page then 0
  else if page = 0x00 then s.entryStaging.byte off
  else if h : 0x01 ≤ page ∧ page ≤ 0x20 then s.entries[page - 0x01].byte off
  else if page = 0x21 then s.scan.channelStaging.byte off
  else if h : 0x22 ≤ page ∧ page ≤ 0x33 then
    if off < 0x10 then s.records[page - 0x22].byte off else s.scan.channels[page - 0x22].byte off
  else if h : 0x34 ≤ page ∧ page ≤ 0x37 then
    if off < 0x10 then s.records[page - 0x22].byte off else s.derivedInForce[page - 0x34].byte off
  else if page = 0x38 then s.switchStaging.byte off
  else if h : 0x39 ≤ page ∧ page ≤ 0x40 then s.switches[page - 0x39].byte off
  else if page = 0x41 then seqListByte s.seq.upList part off
  else if page = 0x42 then seqListByte s.seq.downList part off
  else if page = 0x43 then s.seq.staging.byte part off
  else if page = 0x44 then s.scan.staging.byte off
  else if page = 0x45 then scanListByte s.scan.list off
  else if 0x46 ≤ page ∧ page ≤ 0x4D then
    match s.captures.records[page - 0x46]? with
    | some r => r.byte off
    | none => 0
  else if h : 0x4E ≤ page ∧ page ≤ 0x51 then s.fault.slotByte ⟨page - 0x4E, by omega⟩ off
  else if page = 0x52 then
    if h : off < 16 then s.derivedWritten[off / 4].byte (off % 4) else 0
  else 0

/-! ### The head-event area and the global registers -/

/-- A byte of the head-event area (R175). -/
def EventRecord.byte (r : EventRecord) (off : Nat) : Byte :=
  match off with
  | 0x00 => byteOf r.seq 0
  | 0x01 => byteOf r.seq 1
  | 0x02 => byteOf r.timestamp 0
  | 0x03 => byteOf r.timestamp 1
  | 0x04 => byteOf r.timestamp 2
  | 0x05 => byteOf r.timestamp 3
  | 0x06 => r.kind.code
  | 0x07 => (r.source.map (BitVec.ofNat 8)).getD 0xFF
  | 0x08 => byteOf r.detail 0
  | 0x09 => byteOf r.detail 1
  | 0x0A => BitVec.ofBool r.lossBefore ++ (0#5) ++ BitVec.ofNat 2 r.cls.val
  | _ => 0

/-- Byte 0x02 of STATUS (R172). -/
def State.statusLow (s : State) (service : Bool) : Byte :=
  s.seq.state.code.setWidth 3 ++ BitVec.ofBool s.scan.pendingChannel.isSome ++
    BitVec.ofBool s.scan.pendingList.isSome ++ BitVec.ofBool s.scan.scanning ++ BitVec.ofBool service ++
    BitVec.ofBool s.ready

/-- Byte 0x03 of STATUS (R172). -/
def State.statusHigh (s : State) : Byte := BitVec.ofNat 4 s.scan.stepIndex ++ BitVec.ofNat 4 s.seq.state.index

/-- A byte of the global registers, 0x00 to 0x1F (R172). -/
def State.globalByte (s : State) (service : Bool) (addr : Nat) : Byte :=
  match addr with
  | 0x00 => Config.partCode
  | 0x01 => Config.revision
  | 0x02 => s.statusLow service
  | 0x03 => s.statusHigh
  | 0x04 => s.port.arg0
  | 0x05 => s.port.arg1
  | 0x06 => s.port.arg2
  | 0x07 => s.port.arg3
  | 0x08 => s.port.tag.zeroExtend 8
  | 0x0A => s.port.result.code.code
  | 0x0B => s.port.result.tag.zeroExtend 8
  | 0x0C => s.port.result.detail
  | 0x0D => BitVec.ofNat 8 s.queue.alertLevel.val
  | 0x0E => s.port.page
  | 0x0F => BitVec.ofNat 8 s.queue.records.length
  | 0x10 => s.queue.lossCount
  | 0x11 => s.scan.mode.code
  | 0x12 => byteOf s.scan.period 0
  | 0x13 => byteOf s.scan.period 1
  | 0x14 => byteOf s.scan.frameNumber 0
  | 0x15 => byteOf s.scan.frameNumber 1
  | 0x16 => byteOf s.scan.frameNumber 2
  | 0x17 => byteOf s.scan.frameNumber 3
  | 0x18 => byteOf s.timestamp 0
  | 0x19 => byteOf s.timestamp 1
  | 0x1A => byteOf s.timestamp 2
  | 0x1B => byteOf s.timestamp 3
  | 0x1C => byteOf s.seq.outcome.bytes 0
  | 0x1D => byteOf s.seq.outcome.bytes 1
  | 0x1E => s.port.part.zeroExtend 8
  | _ => 0

/-- The byte of the window at an address, live (R169, R172, R175, R176). -/
def State.windowByte (s : State) (service : Bool) (addr : Nat) : Byte :=
  if addr < 0x20 then s.globalByte service addr
  else if addr < 0x40 then
    match s.queue.records with
    | [] => 0
    | r :: _ => r.byte (addr - 0x20)
  else if addr < 0x80 then s.pageByte s.port.page.toNat s.port.part.toNat (addr - 0x40)
  else 0

/-! ### Multi-byte fields (R170) -/

/-- The length of the multi-byte field of an entry page whose lowest byte is `off` (R177). -/
def entryFieldLength (readback : Bool) (off : Nat) : Option Nat :=
  if off = 0x04 ∨ off = 0x06 ∨ off = 0x08 ∨ off = 0x0C ∨ off = 0x16 then some 2
  else if off = 0x19 then some 3
  else if readback ∧ (off = 0x26 ∨ off = 0x28) then some 2
  else none

/-- The length of the multi-byte field of a page whose lowest byte is `off`: the multi-byte entries of the layouts of
R177 to R180 (R170; log 15). -/
def pageFieldLength (page part off : Nat) : Option Nat :=
  if isSequencePage page then
    if (part = 0 ∨ (part = 1 ∧ page = 0x43)) ∧ off % 2 = 0 then some 2 else none
  else if part ≠ 0 then none
  else if page = 0x00 then entryFieldLength false off
  else if page ≤ 0x20 then entryFieldLength true off
  else if page = 0x21 then if off = 0x02 ∨ off = 0x04 then some 2 else none
  else if page ≤ 0x37 then
    if off = 0x02 ∨ off = 0x04 ∨ off = 0x06 ∨ off = 0x08 ∨ off = 0x0E then some 2
    else if off = 0x0A then some 4
    else if off = 0x10 then some 8
    else none
  else if page ≤ 0x40 then
    if off = 0x02 ∨ off = 0x04 ∨ off = 0x06 ∨ off = 0x08 then some 2
    else if page ≠ 0x38 ∧ off = 0x14 then some 2
    else if page ≠ 0x38 ∧ off = 0x18 then some 5
    else none
  else if 0x46 ≤ page ∧ page ≤ 0x4D then
    if off = 0x08 ∨ off = 0x0A then some 2
    else if off = 0x0C then some 12
    else if off = 0x18 ∨ off = 0x1C then some 4
    else none
  else if 0x4E ≤ page ∧ page ≤ 0x51 then
    if off = 0x04 ∨ off = 0x08 ∨ off = 0x0A then some 2
    else if off = 0x0C then some 12
    else none
  else none

/-- The length of the multi-byte field of the window whose lowest byte is at `addr` (R170). -/
def Port.fieldLength (p : Port) (addr : Nat) : Option Nat :=
  if addr = 0x02 ∨ addr = 0x12 ∨ addr = 0x1C then some 2
  else if addr = 0x0A then some 3
  else if addr = 0x04 ∨ addr = 0x14 ∨ addr = 0x18 then some 4
  else if addr = 0x20 then some 32
  else if 0x40 ≤ addr ∧ addr < 0x80 then pageFieldLength p.page.toNat p.part.toNat (addr - 0x40)
  else none

/-! ### Writes -/

/-- A byte written to the page shown (R176): stored on a read/write page's fields, ignored elsewhere. -/
def State.writePage (s : State) (page part off : Nat) (b : Byte) : State :=
  if part ≠ 0 ∧ !isSequencePage page then s
  else if page = 0x00 then { s with entryStaging := s.entryStaging.setByte off b }
  else if page = 0x21 then s.modScan fun u => { u with channelStaging := u.channelStaging.setByte off b }
  else if page = 0x38 then { s with switchStaging := s.switchStaging.setByte off b }
  else if page = 0x43 then s.modSeq fun q => { q with staging := q.staging.setByte part off b }
  else if page = 0x44 then s.modScan fun u => { u with staging := u.staging.setByte off b }
  else if page = 0x52 then
    if h : off < 16 then
      { s with derivedWritten := s.derivedWritten.set (off / 4) (s.derivedWritten[off / 4].setByte (off % 4) b) }
    else s
  else s

/-- The addresses whose writes have rows of their own: COMMAND code, ALERT_LEVEL, SCAN_MODE and FRAME_PERIOD. -/
def hasOwnRow (addr : Nat) : Bool :=
  addr == 0x09 || addr == 0x0D || addr == 0x11 || addr == 0x12 || addr == 0x13

/-- A data byte taken at an address that has no row of its own (R168, R172, R173, R176). -/
def State.writeRegister (s : State) (addr : Nat) (b : Byte) : State :=
  if addr = 0x04 then s.modPort fun p => { p with arg0 := b }
  else if addr = 0x05 then s.modPort fun p => { p with arg1 := b }
  else if addr = 0x06 then s.modPort fun p => { p with arg2 := b }
  else if addr = 0x07 then s.modPort fun p => { p with arg3 := b }
  else if addr = 0x08 then s.modPort fun p => { p with tag := b.setWidth 4 }
  else if addr = 0x0E then s.modPort fun p => { p with page := b }
  else if addr = 0x1E then if 3 < b.toNat then s else s.modPort fun p => { p with part := b.setWidth 2 }
  else if 0x40 ≤ addr ∧ addr < 0x80 then s.writePage s.port.page.toNat s.port.part.toNat (addr - 0x40) b
  else s

end Sys2Proof.Machine
end

