-- ==== Sys2Proof/WellFormed.lean ====
section
/-! DEFINITION. Which terms of `Instr` are steps of the table. The operand types carry every range of the rows but one:
a BAD_COMMAND's code is none of the sixteen command codes (R174). -/

namespace Sys2Proof

/-- A step is well formed: BAD_COMMAND names a byte that is not one of the sixteen codes (R174). -/
def Instr.wellFormed : Instr → Bool
  | .badCommand code => !isCommandCode code
  | _ => true

end Sys2Proof
end

