-- ==== Sys2Proof/Machine/PortSteps.lean ====
section
/-! DEFINITION. The Host Port's own steps (R167 to R173): address, pointer, data and served bytes, the end of a transfer,
and a command code that names no command. -/

namespace Sys2Proof.Machine

/-- The address byte after a start condition: the port joins if the address is its own, and otherwise waits for the next
start; a start ends any transfer in progress (R167, R170). -/
def addressByte (value : Byte) (s : State) : State :=
  if value.extractLsb' 1 7 = s.port.address then
    s.modPort fun p =>
      { p with phase := if value.getLsbD 0 then .reading else .pointerNext, snapshot := none, acked := true }
  else s.modPort fun p => { p with phase := .waiting, snapshot := none, acked := false }

/-- The first data byte of a write transfer sets the pointer (R168). -/
def pointerWrite (value : Byte) (s : State) : State :=
  if s.port.phase = .pointerNext then
    s.modPort fun p => { p with pointer := value, phase := .writing, acked := true }
  else s

/-- A data byte taken at an address that has no row of its own (R168, R173; log 11). -/
def registerWrite (value : Byte) (s : State) : State :=
  if s.port.phase = .writing ∧ !hasOwnRow s.port.pointer.toNat then
    (s.writeRegister s.port.pointer.toNat value).byteTaken
  else s

/-- A code that is not one of the sixteen: BAD_COMMAND with the code as detail (R174 step 2). -/
def badCommandBody (code : Byte) (s : State) : Reply := s.refuse .badCommand code

/-- The byte that an open snapshot holds for the pointer (R170). -/
def Port.snapshotByte (p : Port) : Option Byte :=
  match p.snapshot with
  | none => none
  | some x => if p.pointer = x.base then none else x.bytes[(p.pointer - x.base).toNat]?

/-- The pointer stands at the last byte of the open snapshot (R170). -/
def Port.atSnapshotEnd (p : Port) : Bool :=
  match p.snapshot with
  | none => false
  | some x => (p.pointer - x.base).toNat + 1 == x.bytes.length

/-- The snapshot of the field at the pointer, as its owner holds it (R170). -/
def State.captureField (s : State) (service : Bool) (length : Nat) : Snapshot :=
  { base := s.port.pointer
    bytes := (List.range length).map fun j => s.windowByte service (s.port.pointer.toNat + j) }

/-- The port has put a byte on the data line: the pointer advances, and a byte the host does not acknowledge is the last
(R169). -/
def State.byteServed (s : State) (b : Byte) (snapshot : Option Snapshot) (ack : Bool) : State :=
  s.modPort fun p =>
    { p with
      served := b
      snapshot := snapshot
      pointer := p.pointer + 1
      phase := if ack then .reading else .readEnded }

/-- In a read transfer the port serves the byte at the pointer: at the lowest byte of a field it captures the field, and
the later bytes come from that snapshot, which closes at the last; any other byte is live (R169, R170). -/
def serveByte (service ack : Bool) (s : State) : State :=
  if s.port.phase = .reading then
    let live := s.windowByte service s.port.pointer.toNat
    match s.port.fieldLength s.port.pointer.toNat with
    | some length => s.byteServed live (some (s.captureField service length)) ack
    | none =>
      match s.port.snapshotByte with
      | some b => s.byteServed b (if s.port.atSnapshotEnd then none else s.port.snapshot) ack
      | none => s.byteServed live s.port.snapshot ack
  else s

/-- The lowest byte of a multi-byte field is served: the field is captured (R170). -/
def fieldSnapshot (service ack : Bool) (s : State) : State :=
  if (s.port.fieldLength s.port.pointer.toNat).isSome then serveByte service ack s else s

/-- A stop condition or repeated start ends the transfer and discards the snapshot (R167, R170). -/
def transferEnd (s : State) : State := s.modPort fun p => { p with phase := .waiting, snapshot := none }

/-- The port drops a transfer it takes part in (R171). -/
def transferTimeout (s : State) : State :=
  if s.port.phase = .waiting then s else s.modPort fun p => { p with phase := .waiting, snapshot := none }

/-- ADDRESS_BYTE (R167). -/
def execAddressByte (value : Byte) (s : State) : Host.Outcome State Fault Refusal :=
  .next (awake (addressByte value) s)

/-- POINTER_WRITE (R168). -/
def execPointerWrite (value : Byte) (s : State) : Host.Outcome State Fault Refusal :=
  .next (awake (pointerWrite value) s)

/-- REGISTER_WRITE (R173). -/
def execRegisterWrite (value : Byte) (s : State) : Host.Outcome State Fault Refusal :=
  .next (awake (registerWrite value) s)

/-- BAD_COMMAND (R174): a byte that is one of the sixteen codes is no BAD_COMMAND, and there is no such step
(log 11). -/
def execBadCommand (code : Byte) (s : State) : Host.Outcome State Fault Refusal :=
  .next (if isCommandCode code then s else takeCommand (badCommandBody code) s)

/-- FIELD_SNAPSHOT (R170). -/
def execFieldSnapshot (service ack : Bool) (s : State) : Host.Outcome State Fault Refusal :=
  .next (awake (fieldSnapshot service ack) s)

/-- DATA_BYTE_SERVED (R169). -/
def execDataByteServed (service ack : Bool) (s : State) : Host.Outcome State Fault Refusal :=
  .next (awake (serveByte service ack) s)

/-- TRANSFER_END (R170). -/
def execTransferEnd (s : State) : Host.Outcome State Fault Refusal := .next (awake transferEnd s)

/-- TRANSFER_TIMEOUT (R171). -/
def execTransferTimeout (s : State) : Host.Outcome State Fault Refusal := .next (awake transferTimeout s)

end Sys2Proof.Machine
end

