-- ==== Sys2Proof/Machine/StartUp.lean ====
section
/-! DEFINITION. Resets and the time base (R127, R182 to R186): power-on and pin reset, the end of reset, SOFT RESET, and
the 1 ms tick. -/

namespace Sys2Proof.Machine

/-- Reset is asserted: every volatile state takes its reset value, and an operation in flight leaves the medium as R147
gives (R182; log 5). The commands that wait and the counter of free values are the model's own and stay. -/
def State.assertReset (s : State) : State :=
  let drawn := s.draw Config.freeMedium 11
  { State.heldInReset (s.fault.interruptedMedium drawn.1.val) (s.fault.interruptedSerial drawn.1.val) with
    choice := drawn.2.choice
    pending := s.pending }

/-- The port address that the pins give: 0x58 plus ADDR1 and ADDR0 (R167). -/
def pinAddress (addr1 addr0 : Bool) : BitVec 7 := (0b10110#5) ++ BitVec.ofBool addr1 ++ BitVec.ofBool addr0

/-- Reset ends: the address is sampled, the trip filter takes the level of TRIP_N, and the restore begins (R69, R182). -/
def resetEnd (addr1 addr0 tripLow : Bool) (s : State) : State :=
  if s.inReset then
    let s1 := s.modPort fun p => { p with address := pinAddress addr1 addr0 }
    let s2 := s1.modFault fun f => { f with restore := some 0 }
    { s2 with inReset := false, trip := { seen := s.trip.seen, lowAtResetEnd := tripLow } }
  else s

/-- The E-holder of an active entry leaves at SOFT RESET (R66, R186). -/
def State.dropHolder (s : State) (n : Fin 32) : State :=
  if s.entries[n].state.active then s.leaveMask (.e n) s.entries[n].config.mask else s

/-- The Scan Unit after SOFT RESET (R112). -/
def ScanUnit.softReset (u : ScanUnit) : ScanUnit :=
  { u with
    mode := .stopped
    scanning := false
    stepIndex := 0
    sampled := none
    pendingTrigger := false
    frameTimer := none
    list := resetScanList
    pendingList := none
    pendingChannel := none }

/-- What an accepted SOFT RESET does (R186): entries and their holders, the Scan Unit, the records and indicators, the
Capture Store and the queue. A message of an erase completion still on its way then finds its entry OFF and the store
empty, and so has no effect (R46, R133). -/
def State.softReset (s : State) : State :=
  let s1 := (List.finRange 32).foldl State.dropHolder s
  let s2 := { s1 with entries := Vector.replicate 32 Entry.default }.modScan ScanUnit.softReset
  let s3 := { s2 with records := s2.records.map MeasRecord.invalidated }
  let s4 := (List.finRange 8).foldl (fun t i => t.setIndicator i false) s3
  ({ s4 with captures := CaptureStore.default }.modFault fun f => { f with sent := [] }).clearQueue

/-- SOFT RESET (R185, R186). -/
def softResetBody (s : State) : Reply :=
  if !s.ready then s.refuse .notReady
  else
    match s.seq.state with
    | .notReady => s.refuse .notReady
    | .poweringUp _ _ => s.refuse .seqBusy
    | .running => s.refuse .seqBusy
    | .poweringDown _ _ _ => s.refuse .seqBusy
    | .standby => ⟨s.softReset, .ok, 0⟩

/-- The timers of an entry after one millisecond. -/
def Entry.tick (e : Entry) : Entry :=
  { e with dwellTimer := e.dwellTimer.tick, recoveryTimer := e.recoveryTimer.tick }

/-- The ramp timer after one millisecond. -/
def Switch.tick (w : Switch) : Switch := { w with rampTimer := w.rampTimer.tick }

/-- The Sequencer's timers after one millisecond. -/
def Sequencer.tick (q : Sequencer) : Sequencer :=
  { q with stepLimit := q.stepLimit.tick, discharge := q.discharge.tick, settle := q.settle.tick }

/-- The frame timer after one millisecond, ten of its 0.1 ms units (R102; log 8). -/
def ScanUnit.tick (u : ScanUnit) : ScanUnit := { u with frameTimer := u.frameTimer.map fun left => left - 10 }

/-- The time-stamp counter and every running timer after one millisecond (R127; log 7). -/
def State.tick (s : State) : State :=
  { s with
    timestamp := s.timestamp + 1
    entries := s.entries.map Entry.tick
    switches := s.switches.map Switch.tick
    seq := s.seq.tick
    scan := s.scan.tick }

/-- One millisecond of the time base (R127): the messages of an erase completion and those of failed switches are taken before
it is over (logs 4 and 26). -/
def timeBaseTick (s : State) : State := s.receiveAll.takeFailures.tick

/-- POWER_ON_RESET (R182). -/
def execPowerOnReset (s : State) : Host.Outcome State Fault Refusal := .next s.assertReset

/-- PIN_RESET (R182): the same event at every block. -/
def execPinReset (s : State) : Host.Outcome State Fault Refusal := .next s.assertReset

/-- RESET_END (R182). -/
def execResetEnd (addr1 addr0 tripLow : Bool) (s : State) : Host.Outcome State Fault Refusal :=
  .next (resetEnd addr1 addr0 tripLow s)

/-- SOFT_RESET (R185). -/
def execSoftReset (s : State) : Host.Outcome State Fault Refusal := .next (takeCommand softResetBody s)

/-- TIME_BASE_TICK (R127). -/
def execTimeBaseTick (s : State) : Host.Outcome State Fault Refusal := .next (awake timeBaseTick s)

end Sys2Proof.Machine
end

