-- ==== Sys2Proof/Machine/Dispatch.lean ====
section
/-! DEFINITION. One arm for each command: its meaning. -/

namespace Sys2Proof.Machine

/-- The command's effect on everything but the queue. -/
def exec (i : Instr) (s : State) : Host.Outcome State Fault Refusal :=
  match i with
  | .scanNow => Sys2Proof.Machine.execScanNow s
  | .loadScanList => Sys2Proof.Machine.execLoadScanList s
  | .loadChannel => Sys2Proof.Machine.execLoadChannel s
  | .clearMinmax => Sys2Proof.Machine.execClearMinmax s
  | .loadEntry => Sys2Proof.Machine.execLoadEntry s
  | .release => Sys2Proof.Machine.execRelease s
  | .loadSwitch => Sys2Proof.Machine.execLoadSwitch s
  | .restartSwitch => Sys2Proof.Machine.execRestartSwitch s
  | .loadSequence => Sys2Proof.Machine.execLoadSequence s
  | .powerUp => Sys2Proof.Machine.execPowerUp s
  | .powerDown => Sys2Proof.Machine.execPowerDown s
  | .dropCaptures => Sys2Proof.Machine.execDropCaptures s
  | .clearLock service => Sys2Proof.Machine.execClearLock service s
  | .popEvent => Sys2Proof.Machine.execPopEvent s
  | .clearLoss => Sys2Proof.Machine.execClearLoss s
  | .softReset => Sys2Proof.Machine.execSoftReset s
  | .badCommand code => Sys2Proof.Machine.execBadCommand code s
  | .alertLevelWrite value => Sys2Proof.Machine.execAlertLevelWrite value s
  | .scanModeWrite value => Sys2Proof.Machine.execScanModeWrite value s
  | .framePeriodLowWrite value => Sys2Proof.Machine.execFramePeriodLowWrite value s
  | .framePeriodHighWrite value => Sys2Proof.Machine.execFramePeriodHighWrite value s
  | .registerWrite value => Sys2Proof.Machine.execRegisterWrite value s
  | .pointerWrite value => Sys2Proof.Machine.execPointerWrite value s
  | .addressByte value => Sys2Proof.Machine.execAddressByte value s
  | .fieldSnapshot service ack => Sys2Proof.Machine.execFieldSnapshot service ack s
  | .transferEnd => Sys2Proof.Machine.execTransferEnd s
  | .transferTimeout => Sys2Proof.Machine.execTransferTimeout s
  | .powerOnReset => Sys2Proof.Machine.execPowerOnReset s
  | .pinReset => Sys2Proof.Machine.execPinReset s
  | .resetEnd addr1 addr0 tripLow => Sys2Proof.Machine.execResetEnd addr1 addr0 tripLow s
  | .restoreSlotSettled => Sys2Proof.Machine.execRestoreSlotSettled s
  | .restoreComplete => Sys2Proof.Machine.execRestoreComplete s
  | .tripFilterAssert lowSinceReset => Sys2Proof.Machine.execTripFilterAssert lowSinceReset s
  | .tripFilterRelease => Sys2Proof.Machine.execTripFilterRelease s
  | .syncEdge => Sys2Proof.Machine.execSyncEdge s
  | .frameTimerExpiry => Sys2Proof.Machine.execFrameTimerExpiry s
  | .scanStepSample a b c => Sys2Proof.Machine.execScanStepSample a b c s
  | .scanStepComplete => Sys2Proof.Machine.execScanStepComplete s
  | .dwellExpiry n => Sys2Proof.Machine.execDwellExpiry n s
  | .recoveryExpiry n => Sys2Proof.Machine.execRecoveryExpiry n s
  | .rampTimerExpiry k => Sys2Proof.Machine.execRampTimerExpiry k s
  | .stepLimitExpiry => Sys2Proof.Machine.execStepLimitExpiry s
  | .dischargeTimerExpiry => Sys2Proof.Machine.execDischargeTimerExpiry s
  | .settleTimerExpiry => Sys2Proof.Machine.execSettleTimerExpiry s
  | .programPhaseEnd => Sys2Proof.Machine.execProgramPhaseEnd s
  | .programComplete => Sys2Proof.Machine.execProgramComplete s
  | .erasePhaseEnd => Sys2Proof.Machine.execErasePhaseEnd s
  | .eraseComplete => Sys2Proof.Machine.execEraseComplete s
  | .cleanupEraseComplete => Sys2Proof.Machine.execCleanupEraseComplete s
  | .dataByteServed service ack => Sys2Proof.Machine.execDataByteServed service ack s
  | .timeBaseTick => Sys2Proof.Machine.execTimeBaseTick s

end Sys2Proof.Machine
end

