-- ==== Sys2Proof/Safety.lean ====
section
/-! DEFINITION. What a safe CT416 is, as the invariants its rules give: legal switches and entries, hold sets that say
exactly who holds, a queue and a capture store within bounds, demands that follow the sequence, and a quiet Scan Unit
with nothing pending. -/

namespace Sys2Proof.Machine

/-! ### What the port shows of a step -/

/-- A byte is taken at COMMAND code: the part is out of reset, the port in a write transfer past its pointer byte, and the
pointer at 0x09 (R168, R174). -/
def State.commandTaken (s : State) : Prop :=
  s.inReset = false ∧ s.port.phase = .writing ∧ s.port.pointer = 0x09

/-- A byte is taken at the register at address `a` (R168). -/
def State.byteTakenAt (s : State) (a : Byte) : Prop :=
  s.inReset = false ∧ s.port.phase = .writing ∧ s.port.pointer = a

/-- The byte of a write transfer is acknowledged and the pointer advances by one, wrapping (R167, R168). -/
def State.acknowledged (s : State) : State :=
  { s with port := { s.port with pointer := s.port.pointer + 1, acked := true } }

/-- RESULT shows a code and a detail under the tag of COMMAND tag, and the code byte is acknowledged (R168, R174). -/
def State.answered (s : State) (code : ResultCode) (detail : Byte) : State :=
  { s with
    port :=
      { s.port with
        result := { code := code, tag := s.port.tag, detail := detail }
        pointer := s.port.pointer + 1
        acked := true } }

/-! ### Switches -/

/-- The rows of R55, R56 and R59 for one switch: OFF exactly with demand OFF; no member while it ramps or is ON; a member
while BLOCKED; no member and restart mode MANUAL while TRIPPED; a ramp timer exactly in RAMPING. -/
def Switch.legal (w : Switch) : Prop :=
  (w.state = .off ↔ w.demand = false) ∧
  (w.state = .ramping ∨ w.state = .on → w.holds = 0) ∧
  (w.state = .blocked → w.holds ≠ 0) ∧
  (w.state = .tripped → w.holds = 0 ∧ w.config.isManual = true) ∧
  (w.rampTimer.isSome = true ↔ w.state = .ramping)

/-- Every switch is legal (R55, R56, R59). -/
def State.switchesLegal (s : State) : Prop := ∀ i : Fin 8, s.switches[i].legal

/-- No gate is energised unless its switch is demanded and nobody holds it (R55). -/
def State.gatesSafe (s : State) : Prop :=
  ∀ i : Fin 8, s.gate i = true → s.switches[i].demand = true ∧ s.switches[i].holds = 0

/-! ### Entries -/

/-- The rows of R21 and R22 for one entry: OFF exactly while not enabled; the dwell timer and the dwell record exactly in
PENDING; the recovery timer exactly in RECOVERING, a state of AUTO mode with a recovery time; RELEASABLE in HOST mode;
LOCKED in tier LOCK and the other active states outside it. -/
def Entry.legal (e : Entry) : Prop :=
  (e.state = .off ↔ e.config.isEnabled = false) ∧
  (e.dwellTimer.isSome = true ↔ e.state = .pending) ∧
  (e.dwellRecord.isSome = true ↔ e.state = .pending) ∧
  (e.recoveryTimer.isSome = true ↔ e.state = .recovering) ∧
  (e.state = .recovering → e.config.isHostMode = false ∧ e.config.recoveryTime ≠ 0) ∧
  (e.state = .releasable → e.config.isHostMode = true) ∧
  (e.state.active = true → (e.state = .locked ↔ e.config.isLock = true))

/-- Every entry is legal (R21, R22, R24). -/
def State.entriesLegal (s : State) : Prop := ∀ n : Fin 32, s.entries[n].legal

/-- The return of active entry `n` to IDLE as one update (R38, R46): no timer runs, the E-holder leaves the switches of the
mask, and ENTRY_RECOVERED is posted with a cause and the entry's class. -/
def State.returned (s : State) (n : Fin 32) (cause : Half) : State :=
  ({ s with
    entries := s.entries.set n
      { s.entries[n] with state := .idle, dwellTimer := none, recoveryTimer := none, dwellRecord := none }
    switches := Vector.ofFn fun i =>
      if s.entries[n].config.mask.getLsbD i.val then s.switches[i].leave (.e n) else s.switches[i] } : State).post
        .entryRecovered (some n.val) cause s.entries[n].config.classOf

/-! ### Hold sets -/

/-- An entry is a member of a switch's hold set exactly while it is active and the switch is in its mask (R66). -/
def State.eHoldersExact (s : State) : Prop :=
  ∀ (i : Fin 8) (n : Fin 32),
    s.switches[i].holds.has (.e n) = (s.entries[n].state.active && s.entries[n].config.mask.getLsbD i.val)

/-- A slot is a member exactly while it is VALID or ERASING and the switch is in its stored mask (R67). -/
def State.kHoldersExact (s : State) : Prop :=
  ∀ (i : Fin 8) (k : Fin 4),
    s.switches[i].holds.has (.k k) =
      match s.fault.slots[k] with
      | .valid h _ => h.mask.getLsbD i.val
      | .erasing h _ => h.mask.getLsbD i.val
      | .empty _ => false
      | .writing _ _ _ _ => false

/-- X is a member exactly while TRIP_N is seen asserted and the switch's trip response is yes (R68). -/
def State.xHolderExact (s : State) : Prop :=
  ∀ i : Fin 8, s.switches[i].holds.has .x = (s.trip.seen && s.switches[i].config.obeysTrip)

/-- Held in reset the part is not ready and no restore runs; a restore runs only before the part is ready; and until then
the Sequencer is NOT_READY, the Scan Unit STOPPED and IDLE, every entry OFF, and no operation in flight (R182 to R184).
DESIGN CHOICE (log 24): a slot that the restore has not settled is EMPTY without cleanup mark. -/
def State.startingClean (s : State) : Prop :=
  (s.inReset = true → s.ready = false ∧ s.fault.restore = none) ∧
  (s.fault.restore.isSome = true → s.ready = false) ∧
  (s.ready = false →
    s.seq.state = .notReady ∧ s.scan.mode = .stopped ∧ s.scan.scanning = false ∧ s.fault.phase = none ∧
    (∀ n : Fin 32, s.entries[n].state = .off) ∧
    (∀ k : Fin 4, s.fault.restore.getD 0 ≤ k.val → s.fault.slots[k] = .empty false))

/-! ### Stored locks -/

/-- The kind of the work list item of slot `k`, if there is one (R140). -/
def FaultMemory.itemKind (f : FaultMemory) (k : Fin 4) : Option WorkKind :=
  (f.work.find? fun i => i.slot == k).map WorkItem.kind

/-- The phase slot `k`'s item has reached, if it is in flight (R140 to R142). -/
def FaultMemory.phaseOf (f : FaultMemory) (k : Fin 4) : Option OpPhase :=
  if f.work.head?.map WorkItem.slot = some k then f.phase else none

/-- The medium of a slot whose program has come to a phase: blank, but for the header once it is written (R141). -/
def programmedSoFar (d : SlotMedium) (h : Option LockHeader) (p : Option OpPhase) : Prop :=
  match p, h with
  | none, none => d = SlotMedium.blank
  | some .serial, some _ => d = SlotMedium.blank
  | some .header, some _ => d = SlotMedium.blank
  | some .body, some x => d = { SlotMedium.blank with header := .whole x }
  | _, _ => False

/-- The medium of a slot whose erase has come to a phase (R142): at the unmark phase header and body are blank. -/
def erasedSoFar (d : SlotMedium) (p : Option OpPhase) : Prop :=
  match p with
  | none => True
  | some .mark => True
  | some .clear => True
  | some .unmark => d.header = .blank ∧ d.body = .blank
  | some .serial => False
  | some .header => False
  | some .body => False

/-- The controller's view of slot `k` agrees with its medium and its work list item (R138 to R142, R149): a VALID slot is
what a restore would make of its medium, and so is an ERASING slot until its mark is written. -/
def FaultMemory.slotAgrees (f : FaultMemory) (k : Fin 4) : Prop :=
  match f.slots[k] with
  | .empty false => f.itemKind k = none ∧ f.medium[k] = SlotMedium.blank
  | .empty true => f.itemKind k = some .cleanup ∧ erasedSoFar f.medium[k] (f.phaseOf k)
  | .writing e m x _ =>
    (f.itemKind k = some .program ∧
      programmedSoFar f.medium[k] (x.map fun y => { entry := e, mask := m, serial := y }) (f.phaseOf k)) ∨
    (f.itemKind k = some .cleanupThenProgram ∧
      ((x = none ∧ erasedSoFar f.medium[k] (f.phaseOf k)) ∨
       (x.isSome = true ∧
          programmedSoFar f.medium[k] (x.map fun y => { entry := e, mask := m, serial := y }) (f.phaseOf k))))
  | .valid h b => f.itemKind k = none ∧ f.medium[k].restored = .valid h b
  | .erasing h b =>
    f.itemKind k = some .erase ∧ erasedSoFar f.medium[k] (f.phaseOf k) ∧
      (f.phaseOf k = none ∨ f.phaseOf k = some .mark → f.medium[k].restored = .valid h b)

/-- Every settled slot agrees with its medium; no slot has two items; before the part is ready only settled slots have
one, and in a ready part an item is in flight exactly while there is one (R138 to R148). -/
def State.locksAgree (s : State) : Prop :=
  (s.fault.work.map WorkItem.slot).Nodup ∧
  (s.ready = true → (s.fault.phase.isSome = true ↔ s.fault.work ≠ [])) ∧
  (s.ready = false → ∀ i ∈ s.fault.work, i.slot.val < s.fault.restore.getD 0) ∧
  ∀ k : Fin 4, s.ready = true ∨ k.val < s.fault.restore.getD 0 → s.fault.slotAgrees k

/-- No two non-EMPTY slots name the same entry (R139), with what keeps it so: what a restore would make of the medium names
no entry twice (R148), and a settled slot names the entry its medium would be restored with; an entry that a slot names is
LOCKED, or OFF with no pending load but a locking one (R14, R139), and no message that would free it is on its way (R142);
before the part is ready no load or message waits, and the slots name what the medium does. -/
def State.slotsNameApart (s : State) : Prop :=
  let held (k : Fin 4) : Option (Fin 32) := s.fault.slots[k].names
  let stored (k : Fin 4) : Option (Fin 32) := s.fault.medium[k].restored.names
  (∀ (k l : Fin 4) (n : Fin 32), held k = some n → held l = some n → k = l) ∧
  (∀ (k l : Fin 4) (n : Fin 32), stored k = some n → stored l = some n → k = l) ∧
  (∀ (k : Fin 4) (n : Fin 32), s.ready = true ∨ k.val < s.fault.restore.getD 0 → stored k = some n → held k = some n) ∧
  (∀ (k : Fin 4) (n : Fin 32), held k = some n →
    (s.entries[n].state = .locked ∨ s.entries[n].state = .off ∧
      ∀ c, s.entries[n].pendingLoad = some c → c.isEnabled = true → c.isLock = true) ∧
    ClearMessage.engine n ∉ s.fault.sent) ∧
  (s.ready = false → s.fault.sent = [] ∧ (∀ n : Fin 32, s.entries[n].pendingLoad = none) ∧
    ∀ (k : Fin 4) (n : Fin 32), held k = some n → stored k = some n)

/-! ### Queue and captures -/

/-- At most 32 records, and ALERT_N asserted exactly while one is at or above the alert level (R153, R163). -/
def EventQueue.sound (q : EventQueue) : Prop :=
  q.records.length ≤ 32 ∧ (q.alert = true ↔ ∃ r ∈ q.records, q.alertLevel.val ≤ r.cls.val)

/-- At most eight records, at most four pinned, no id twice (R127, R130). -/
def CaptureStore.sound (c : CaptureStore) : Prop :=
  c.records.length ≤ 8 ∧ c.pinnedCount ≤ 4 ∧ (c.records.map CaptureRecord.id).Nodup

/-! ### Sequencer -/

/-- The switches that steps name. -/
def seqSwitches (l : List SeqStep) : List (Fin 8) := l.map SeqStep.switch

/-- The lists in force: no switch twice in one, every switch of the Up List in the Down List, every switch named
enabled, both empty or both not (R74). -/
def State.listsSound (s : State) : Prop :=
  (seqSwitches s.seq.upList).Nodup ∧ (seqSwitches s.seq.downList).Nodup ∧
  (∀ i ∈ seqSwitches s.seq.upList, i ∈ seqSwitches s.seq.downList) ∧
  (∀ i ∈ seqSwitches s.seq.downList, s.switches[i].config.isEnabled = true) ∧
  (s.seq.upList = [] ↔ s.seq.downList = [])

/-- The switches whose demand may be ON in a sequencer state (R76): none in NOT_READY and STANDBY, those of the Up List in
POWERING_UP and RUNNING, those of the down steps not yet begun in POWERING_DOWN. -/
def Sequencer.mayDemand (q : Sequencer) : List (Fin 8) :=
  match q.state with
  | .notReady => []
  | .standby => []
  | .poweringUp _ _ => seqSwitches q.upList
  | .running => seqSwitches q.upList
  | .poweringDown j _ _ => seqSwitches (q.downList.drop (j + 1))

/-- Every switch with demand ON is one the sequencer state allows (R76). -/
def State.demandsFollow (s : State) : Prop :=
  (∀ i ∈ seqSwitches s.seq.upList, i ∈ seqSwitches s.seq.downList) ∧
  ∀ i : Fin 8, s.switches[i].demand = true → i ∈ s.seq.mayDemand

/-! ### Scan Unit and records -/

/-- In IDLE no trigger is pending; the frame timer runs exactly in TIMED mode; the frame period is at least 1.0 ms; while
the Scan Unit is quiet no load of any kind is pending (R102, R104, R108). -/
def State.scanSound (s : State) : Prop :=
  (s.scan.scanning = false → s.scan.pendingTrigger = false) ∧
  (s.scan.frameTimer.isSome = true ↔ s.scan.mode = .timed) ∧
  10 ≤ s.scan.period.toNat ∧
  (s.scan.quiet = true → s.scan.pendingList = none ∧ s.scan.pendingChannel = none ∧
    ∀ n : Fin 32, s.entries[n].pendingLoad = none)

/-- A valid record has minimum ≤ latest reading ≤ maximum, and the record of a channel absent from the Scan List in force
is invalid (R116, R117). -/
def State.recordsSound (s : State) : Prop :=
  (∀ r : Fin 22, s.records[r].valid = true →
    s.records[r].minimum.toInt ≤ s.records[r].latest.toInt ∧ s.records[r].latest.toInt ≤ s.records[r].maximum.toInt) ∧
  ∀ ch : Fin 18, ch ∉ listChannels s.scan.list → s.records[channelSource ch].valid = false

end Sys2Proof.Machine
end

