-- ==== Sys2Proof/Certificates/Slice0/Obligations.lean ====
section
/-! DEFINITION. The statements for the provers, in the order of OBLIGATIONS.json. Each docstring names the rules of spec/
that the statement formalises; where it says "log", the clause is the model's choice, named in notes/assumptions. -/

section

open Sys2Proof Sys2Proof.Machine

/-! ### The machine, resets and the restore -/

/-- One step takes the command at the front of the queue, with the queue's rest; on an empty queue the part idles
(log 16). -/
def Obligations.StepTakesTheFrontCommand : Prop :=
  (∀ (c : Instr) (rest : List Instr) (s : State), s.pending = c :: rest → step s = exec c { s with pending := rest }) ∧
  ∀ s : State, s.pending = [] → step s = .next s

/-- Every step of the table completes from every state: a command is accepted or refused with a result, and no step stops
the part; no step touches the commands that wait (R174; log 11 for a step out of place). -/
def Obligations.EveryCommandCompletes : Prop :=
  ∀ (c : Instr) (s : State), ∃ t, exec c s = .next t ∧ t.pending = s.pending

/-- The state after reset meets every invariant that the statements below say each step keeps; its pins and its blank
medium are log 1, and its slots, EMPTY before the restore settles them, are log 24. -/
def Obligations.ResetStateMeetsTheInvariants : Prop :=
  State.reset.switchesLegal ∧ State.reset.gatesSafe ∧ State.reset.entriesLegal ∧ State.reset.eHoldersExact ∧
  State.reset.xHolderExact ∧ State.reset.kHoldersExact ∧ State.reset.startingClean ∧ State.reset.locksAgree ∧
  State.reset.slotsNameApart ∧
  State.reset.queue.sound ∧ State.reset.captures.sound ∧ State.reset.listsSound ∧ State.reset.demandsFollow ∧
  State.reset.scanSound ∧ State.reset.recordsSound

/-- Power-on reset and pin reset are the same event: from any state, every volatile state takes its reset value, written out
here field by field (R2, R9, R20, R49, R70, R93, R111, R125, R137, R166, R181, R182), no gate is energised and ALERT_N is
released; of what went before only the medium stays, as the next statement gives. The model's own: the address 0x58 until the
end of reset samples the pins (log 1); the byte served and the acknowledge at 0 and false (log 2); every slot EMPTY without
cleanup mark until the restore settles it (log 24); the counter of free values and the waiting commands. -/
def Obligations.ResetAssertion : Prop :=
  ∀ s : State, exec .powerOnReset s = exec .pinReset s ∧ ∃ t, exec .pinReset s = .next t ∧
    (∀ i, t.gate i = false) ∧
    let entry : EntryConfig :=
      { enabled := 0, source := 0, valueKind := 0, direction := 0, trip := 0, recovery := 0, dwell := 0
        recoveryMode := 0, recoveryTime := 0, tier := 0, mask := 0, abort := 0, eventClass := 0, transients := 0
        deratePresent := 0, derateRef := 0, derateDelta := 0, companionCount := 0, companion0 := 0, companion1 := 0
        companion2 := 0 }
    let switch : SwitchConfig :=
      { enabled := 0, goodChannel := 0, goodThreshold := 0, offThreshold := 0, rampTimeout := 0, dischargeTimeout := 0
        restartMode := 0, tripResponse := 0 }
    let channel (kind : ChannelKind) : ChannelConfig := { kind := kind, gain := 4096, offset := 0, weight := 0 }
    t = {
      inReset := true
      ready := false
      timestamp := 0
      entries := Vector.replicate 32
        { config := entry, state := .off, dwellTimer := none, recoveryTimer := none, assertions := 0, transients := 0
          lastCapture := none, pendingLoad := none, dwellRecord := none }
      entryStaging := entry
      switches := Vector.replicate 8
        { config := switch, demand := false, state := .off, rampTimer := none, holds := 0, discharged := false }
      switchStaging := switch
      trip := { seen := false, lowAtResetEnd := false }
      seq :=
        { upList := [], downList := []
          staging :=
            { upLength := 0, downLength := 0, up := Vector.replicate 16 { switch := 0, settle := 0, limit := 0 }
              down := Vector.replicate 16 { switch := 0, settle := 0, limit := 0 } }
          state := .notReady, stepLimit := none, discharge := none, settle := none, outcome := .none, failed := [] }
      scan :=
        { mode := .stopped, scanning := false, stepIndex := 0, sampled := none, pendingTrigger := false
          frameTimer := none, period := 100, frameNumber := 0
          list := [{ a := none, b := none, c := some 17, settle := 0 }]
          staging := { length := 0, steps := Vector.replicate 12 { a := 0, b := 0, c := 0, settle := 0 } }
          pendingList := none
          channels := Vector.ofFn fun ch => channel (if ch = 16 then .temperature else .voltage)
          channelStaging := { kind := 0, gain := 0, offset := 0, weight := 0 }
          pendingChannel := none }
      records := Vector.replicate 22
        { valid := false, latest := 0, average := 0, minimum := 0, maximum := 0, sampleFrame := 0, clipped := false
          count := 0, stale := false }
      derivedWritten := Vector.replicate 4 { op := 0, a := 0, b := 0, weight := 0 }
      derivedInForce := Vector.replicate 4 { op := .none, a := 0, b := 0, weight := 0 }
      captures := { records := [], nextId := 0 }
      fault :=
        { medium := t.fault.medium, serialWord := t.fault.serialWord, slots := Vector.replicate 4 (.empty false)
          work := [], phase := none, copies := [], restore := none, sent := [] }
      queue := { records := [], nextSeq := 0, lossCount := 0, lossMark := false, alertLevel := 0, alert := false }
      port :=
        { phase := .waiting, address := 0x58, pointer := 0, page := 0, part := 0, arg0 := 0, arg1 := 0, arg2 := 0
          arg3 := 0, tag := 0, result := { code := .noCommand, tag := 0, detail := 0 }, heldLow := none
          snapshot := none, served := 0, acked := false }
      choice := s.choice + 1
      pending := s.pending }

/-- A reset stops the operation in flight where it stands (R147): a slot whose item is not in flight, or whose program is
in its serial phase, is left as it was; a header, body or unmark phase leaves its area in part; a mark phase leaves the
mark in part or as it was; a clear phase leaves header and body in part or blank. The serial word is kept, but in a serial
phase it is written with one more than it held (a failing word counting as 0, log 17), fails its check, or is as it was if
nothing was written yet (R147 and the worked sequence after R152). Which of the outcomes comes is free (log 5). -/
def Obligations.InterruptedWritesOnTheMedium : Prop :=
  ∀ s : State, ∃ t, exec .pinReset s = .next t ∧
    (∀ k : Fin 4,
      (s.fault.phaseOf k = none ∨ s.fault.phaseOf k = some .serial → t.fault.medium[k] = s.fault.medium[k]) ∧
      (s.fault.phaseOf k = some .header → t.fault.medium[k] = { s.fault.medium[k] with header := .partly }) ∧
      (s.fault.phaseOf k = some .body → t.fault.medium[k] = { s.fault.medium[k] with body := .partly }) ∧
      (s.fault.phaseOf k = some .mark →
        t.fault.medium[k] = { s.fault.medium[k] with mark := .partly } ∨ t.fault.medium[k] = s.fault.medium[k]) ∧
      (s.fault.phaseOf k = some .clear →
        (t.fault.medium[k].header = .blank ∨ t.fault.medium[k].header = .partly) ∧
        (t.fault.medium[k].body = .blank ∨ t.fault.medium[k].body = .partly) ∧
        t.fault.medium[k].mark = s.fault.medium[k].mark) ∧
      (s.fault.phaseOf k = some .unmark → t.fault.medium[k] = { s.fault.medium[k] with mark := .partly })) ∧
    (¬(∃ k, s.fault.phaseOf k = some .serial) → t.fault.serialWord = s.fault.serialWord) ∧
    ((∃ k, s.fault.phaseOf k = some .serial) →
      t.fault.serialWord = .value (match s.fault.serialWord with | .value x => x + 1 | .failing => 1) ∨ t.fault.serialWord = .failing ∨
        t.fault.serialWord = s.fault.serialWord)

/-- While reset is asserted, only a reset and the end of reset change anything (R182). When reset ends, the port
address becomes 0x58 plus the value of ADDR1 and ADDR0, the trip filter notes the level of TRIP_N, and the restore
begins at slot 0 (R69, R167, R182); in a part not held in reset the step changes nothing (log 11). -/
def Obligations.ResetHoldsAndEnds : Prop :=
  (∀ (c : Instr) (s : State), s.inReset = true → c ≠ .powerOnReset → c ≠ .pinReset →
    (∀ addr1 addr0 low, c ≠ .resetEnd addr1 addr0 low) → exec c s = .next s) ∧
  (∀ (s : State) (addr1 addr0 low : Bool),
    (s.inReset = true →
      exec (.resetEnd addr1 addr0 low) s = .next { s with
        inReset := false
        port := { s.port with address := 0x58 + (if addr1 then 2 else 0) + (if addr0 then 1 else 0) }
        trip := { s.trip with lowAtResetEnd := low }
        fault := { s.fault with restore := some 0 } }) ∧
    (s.inReset = false → exec (.resetEnd addr1 addr0 low) s = .next s))

/-- The restore settles slot k from its medium (R148): an erase mark that is not blank, or a header that fails beside an
area that is not blank, leaves it EMPTY with a cleanup erase at the tail of the work list and RECORD_DISCARDED posted; a
passing header makes it VALID, with the body if the body passes, its K-holder joins its mask and LOCK_RESTORED is posted;
three blank areas leave it EMPTY with no event. -/
def Obligations.RestoreSettlesASlot : Prop :=
  ∀ (s : State) (k : Fin 4), s.inReset = false → s.fault.restore = some k.val →
    let settled (v : SlotView) : State :=
      { s with fault := { s.fault with slots := s.fault.slots.set k v, restore := some (k.val + 1) } }
    let discarded : State :=
      { s with
        fault :=
          { s.fault with
            slots := s.fault.slots.set k (.empty true)
            restore := some (k.val + 1)
            work := s.fault.work ++ [{ kind := .cleanup, slot := k }] } }
    let joined (h : LockHeader) (b : Option LockBody) : State :=
      { settled (.valid h b) with
        switches := Vector.ofFn fun i => if h.mask.getLsbD i.val then s.switches[i].join (.k k) else s.switches[i] }
    (s.fault.medium[k].mark ≠ .blank →
      exec .restoreSlotSettled s = .next (discarded.post .recordDiscarded (some k.val) 0 2)) ∧
    (s.fault.medium[k].mark = .blank →
      (∀ h b, s.fault.medium[k].header = .whole h → s.fault.medium[k].body = .whole b →
        exec .restoreSlotSettled s =
          .next ((joined h (some b)).post .lockRestored (some k.val) (BitVec.ofNat 16 h.entry.val) 3)) ∧
      (∀ h, s.fault.medium[k].header = .whole h → (∀ b, s.fault.medium[k].body ≠ .whole b) →
        exec .restoreSlotSettled s =
          .next ((joined h none).post .lockRestored (some k.val) (BitVec.ofNat 16 (256 + h.entry.val)) 3)) ∧
      ((∀ h, s.fault.medium[k].header ≠ .whole h) →
        ¬(s.fault.medium[k].header = .blank ∧ s.fault.medium[k].body = .blank) →
        exec .restoreSlotSettled s = .next (discarded.post .recordDiscarded (some k.val) 0 2)) ∧
      (s.fault.medium[k].header = .blank → s.fault.medium[k].body = .blank →
        exec .restoreSlotSettled s = .next (settled (.empty false))))

/-- The restore completes (R183): the Sequencer enters STANDBY, the part is ready, DEVICE_READY is posted with the
number of VALID slots, and the first cleanup erase the restore queued starts; nothing else changes but the serial word. A
serial word that passes stays. One whose check fails is set, when the restore completes, to a lock serial of the
headers that pass, or to 0 if none passes: to the one followed, counting up modulo 65536, by the longest run of
values that no passing header carries, and of two such runs of equal length to the one that follows the higher serial
(R148; that it is set when the restore completes, and from every header that passes, is log 13). A completion taken before
the restore has settled its last slot settles the slots left first, in order (log 13); without a restore in progress neither
row changes anything, nor does a fifth slot (log 11). -/
def Obligations.RestoreCompletion : Prop :=
  (∀ s : State, s.inReset = false → s.fault.restore = some 4 → (∀ i ∈ s.fault.work, i.kind = .cleanup) →
    let valid := ((List.finRange 4).filter fun k => s.fault.slots[k].code == 2).length
    let done (w : SerialWord) : State := ({ s with
      ready := true
      seq := { s.seq with state := .standby }
      fault :=
        { s.fault with
          serialWord := w
          restore := none
          phase := if s.fault.work = [] then none else some .mark } } : State).post .deviceReady none
        (BitVec.ofNat 16 valid) 0
    let carried (x : Half) : Prop := ∃ (k : Fin 4) (h : LockHeader), s.fault.medium[k].header = .whole h ∧ h.serial = x
    let run (x : Half) (d : Nat) : Prop := ∀ j : Nat, 0 < j → j ≤ d → ¬carried (x + BitVec.ofNat 16 j)
    (∀ x, s.fault.serialWord = .value x → exec .restoreComplete s = .next (done (.value x))) ∧
    (s.fault.serialWord = .failing → ∃ x : Half, exec .restoreComplete s = .next (done (.value x)) ∧
      ((∀ y, ¬carried y) → x = 0) ∧
      ((∃ y, carried y) →
        carried x ∧
        ∀ y, carried y → y ≠ x →
          (∀ d, run y d → run x d) ∧ ((∀ d, run x d → run y d) → y.toNat < x.toNat)))) ∧
  (∀ (s t : State) (j : Nat), s.inReset = false → s.fault.restore = some j →
    (j < 4 → exec .restoreSlotSettled s = .next t → exec .restoreComplete s = exec .restoreComplete t) ∧
    (4 ≤ j → exec .restoreSlotSettled s = .next s)) ∧
  (∀ s : State, s.fault.restore = none →
    exec .restoreSlotSettled s = .next s ∧ exec .restoreComplete s = .next s)

/-! ### The host port -/

/-- A transfer's own bytes (R167, R168, R170, R171): an address byte with the port's address in bits 7 to 1 is
acknowledged and opens a read or a write as bit 0 says, and any other leaves the port waiting for a start; both end the
transfer before and its snapshot. The first byte of a write sets the pointer. A stop, and a clock held low in a transfer
the port takes part in, end the transfer and the snapshot, and the pointer stays. That a start and its address byte are one
step is log 20. -/
def Obligations.TransferFraming : Prop :=
  ∀ (s : State) (v : Byte), s.inReset = false →
    (v.extractLsb' 1 7 = s.port.address →
      exec (.addressByte v) s = .next { s with
        port :=
          { s.port with
            phase := if v.getLsbD 0 then .reading else .pointerNext
            snapshot := none
            acked := true } }) ∧
    (v.extractLsb' 1 7 ≠ s.port.address →
      exec (.addressByte v) s = .next { s with
        port := { s.port with phase := .waiting, snapshot := none, acked := false } }) ∧
    (s.port.phase = .pointerNext →
      exec (.pointerWrite v) s = .next { s with
        port := { s.port with phase := .writing, pointer := v, acked := true } }) ∧
    exec .transferEnd s = .next { s with port := { s.port with phase := .waiting, snapshot := none } } ∧
    (s.port.phase ≠ .waiting →
      exec .transferTimeout s = .next { s with port := { s.port with phase := .waiting, snapshot := none } })

/-- In a read transfer the port serves the byte at the pointer, the pointer advances by one, and a byte the host does not
acknowledge is the last (R169). At the lowest byte of a field of two or more bytes the whole field is captured, and a later
byte of the field comes from that snapshot, which closes after its last byte; every other byte is served live (R170; which
entries are fields is log 15). -/
def Obligations.ServedBytes : Prop :=
  ∀ (s : State) (service ack : Bool), s.inReset = false → s.port.phase = .reading →
    let a := s.port.pointer.toNat
    let served (b : Byte) (x : Option Snapshot) : State :=
      { s with
        port :=
          { s.port with
            served := b
            snapshot := x
            pointer := s.port.pointer + 1
            phase := if ack then .reading else .readEnded } }
    (∀ len, s.port.fieldLength a = some len → ∃ x : Snapshot,
      x.base = s.port.pointer ∧ x.bytes = (List.range len).map (fun j => s.windowByte service (a + j)) ∧
      exec (.fieldSnapshot service ack) s = .next (served (s.windowByte service a) (some x)) ∧
      exec (.dataByteServed service ack) s = .next (served (s.windowByte service a) (some x))) ∧
    (s.port.fieldLength a = none → s.port.snapshot = none →
      exec (.dataByteServed service ack) s = .next (served (s.windowByte service a) none)) ∧
    (∀ (x : Snapshot) (j : Nat) (h : j < x.bytes.length), s.port.fieldLength a = none → s.port.snapshot = some x →
      0 < j → j < 256 → s.port.pointer = x.base + BitVec.ofNat 8 j →
      exec (.dataByteServed service ack) s =
        .next (served x.bytes[j] (if j + 1 = x.bytes.length then none else some x)))

/-- What the bytes of the last statement are (R170, R172, R175, R176): the 32 bytes of the global registers from 0x00, with
STATUS as its bits, RESULT, the queue's counts, FRAME_NUMBER, TIMESTAMP and LAST_OUTCOME; the 32 bytes of the head-event
area, all 0 with an empty queue; the page that PAGE and PART select from 0x40; and 0 from 0x80. The fields of two or more
bytes below 0x40 are listed with their lengths (which entries count as one field is log 15), and so are the codes of the
event kinds. The SERVICE level is the operand of the row (log 18). -/
def Obligations.WindowBytes : Prop :=
  ∀ (s : State) (service : Bool),
    let le2 (x : Half) : List Byte := [x.extractLsb' 0 8, x.extractLsb' 8 8]
    let le4 (x : Word) : List Byte := [x.extractLsb' 0 8, x.extractLsb' 8 8, x.extractLsb' 16 8, x.extractLsb' 24 8]
    let num (n : Nat) : Byte := BitVec.ofNat 8 n
    let bit (b : Bool) (value : Nat) : Nat := if b then value else 0
    let sequencer : Nat × Nat := match s.seq.state with
      | .notReady => (0, 0)
      | .standby => (1, 0)
      | .poweringUp i _ => (2, i)
      | .running => (3, 0)
      | .poweringDown i _ _ => (4, i)
    let status : List Byte :=
      [num (bit s.ready 1 + bit service 2 + bit s.scan.scanning 4 + bit s.scan.pendingList.isSome 8 +
        bit s.scan.pendingChannel.isSome 16 + 32 * sequencer.1),
       num (sequencer.2 % 16 + 16 * (s.scan.stepIndex % 16))]
    let mode : Byte := match s.scan.mode with
      | .stopped => 0
      | .timed => 1
      | .sync => 2
    let outcome : List Byte := match s.seq.outcome with
      | .none => [0, 0]
      | .upDone => [1, 0]
      | .downHost => [2, 0]
      | .abortEntry n => [3, num n.val]
      | .abortRamp i => [4, num i.val]
      | .abortTimeout i => [5, num i]
    (List.range 0x20).map (s.windowByte service) =
      [0x16, 0x01] ++ status ++ [s.port.arg0, s.port.arg1, s.port.arg2, s.port.arg3, num s.port.tag.toNat, 0,
        s.port.result.code.code, num s.port.result.tag.toNat, s.port.result.detail, num s.queue.alertLevel.val,
        s.port.page, num s.queue.records.length, s.queue.lossCount, mode] ++ le2 s.scan.period ++
        le4 s.scan.frameNumber ++ le4 s.timestamp ++ outcome ++ [num s.port.part.toNat, 0] ∧
    (List.range 0x20).map (fun j => s.windowByte service (0x20 + j)) = (match s.queue.records with
      | [] => List.replicate 32 0
      | r :: _ =>
        le2 r.seq ++ le4 r.timestamp ++ [r.kind.code, (r.source.map num).getD 0xFF] ++ le2 r.detail ++
          [num (r.cls.val + bit r.lossBefore 128)] ++ List.replicate 21 0) ∧
    (∀ j, j < 0x40 → s.windowByte service (0x40 + j) = s.pageByte s.port.page.toNat s.port.part.toNat j) ∧
    (∀ a, 0x80 ≤ a → s.windowByte service a = 0 ∧ s.port.fieldLength a = none) ∧
    (∀ a, a < 0x40 → s.port.fieldLength a =
      [(0x02, 2), (0x04, 4), (0x0A, 3), (0x12, 2), (0x14, 4), (0x18, 4), (0x1C, 2), (0x20, 32)].lookup a) ∧
    [EventKind.entryAsserted, .entryLocked, .entryRecovered, .entryTransient, .loadDone, .loadAbandoned, .switchRampFail,
      .tripLineAsserted, .tripLineReleased, .seqUpDone, .seqDownDone, .seqStepTimeout, .dischargeTimeout, .scanOverrun,
      .lockStored, .lockNotStored, .lockCleared, .lockRestored, .recordDiscarded, .deviceReady].map EventKind.code =
      [0x01, 0x02, 0x03, 0x04, 0x05, 0x06, 0x10, 0x11, 0x12, 0x20, 0x21, 0x22, 0x23, 0x30, 0x40, 0x41, 0x42, 0x43, 0x44,
        0x50]

/-- The pages as the host reads them, each part of a page as its 64 bytes (R150, R176 to R180): staging and readback of
entries, channels, measurement records, switches, the sequence lists, the Scan List, captures and slots, the written derived
configurations, and 0 for a part a page does not have and for an unused page. A running timer shows at least 1. An EMPTY slot
shows its state and cleanup mark alone. The body of a WRITING slot counts as present (log 14). The fields of two or more bytes
of each page stand in a table (log 15). -/
def Obligations.ReadbackPages : Prop :=
  ∀ s : State,
    let page (p q : Nat) : List Byte := (List.range 64).map (s.pageByte p q)
    let zeros (n : Nat) : List Byte := List.replicate n 0
    let num (n : Nat) : Byte := BitVec.ofNat 8 n
    let bit (b : Bool) (value : Nat) : Nat := if b then value else 0
    let le2 (x : Half) : List Byte := [x.extractLsb' 0 8, x.extractLsb' 8 8]
    let le4 (x : Word) : List Byte := [x.extractLsb' 0 8, x.extractLsb' 8 8, x.extractLsb' 16 8, x.extractLsb' 24 8]
    let left (t : Timer) : List Byte := le2 (match t with | none => 0 | some ms => if ms = 0 then 1 else ms)
    let entry (c : EntryConfig) : List Byte :=
      [c.enabled, c.source, c.valueKind, c.direction] ++ le2 c.trip ++ le2 c.recovery ++ le2 c.dwell ++
        [c.recoveryMode, 0] ++ le2 c.recoveryTime ++ [c.tier, c.mask, c.abort, c.eventClass, c.transients,
        c.deratePresent, c.derateRef, 0] ++ le2 c.derateDelta ++ [c.companionCount, c.companion0, c.companion1,
        c.companion2]
    let record (m : MeasRecord) : List Byte :=
      [num (bit m.valid 1 + bit m.clipped 2 + bit m.stale 4), 0] ++ le2 m.latest ++ le2 m.average ++ le2 m.minimum ++
        le2 m.maximum ++ le4 m.sampleFrame ++ le2 m.count
    let switch (c : SwitchConfig) : List Byte :=
      [c.enabled, c.goodChannel] ++ le2 c.goodThreshold ++ le2 c.offThreshold ++ le2 c.rampTimeout ++
        le2 c.dischargeTimeout ++ [c.restartMode, c.tripResponse]
    let timings (l : List SeqStep) : List Byte := (List.range 16).flatMap fun j => match l[j]? with
      | none => zeros 4
      | some st => le2 st.settle ++ le2 st.limit
    let switches (l : List SeqStep) : List Byte :=
      [num l.length] ++ zeros 15 ++ ((List.range 16).map fun j => match l[j]? with
        | none => 0
        | some st => num st.switch.val) ++ zeros 32
    let staged (l : List StagedSeqStep) : List Byte := l.flatMap fun st => le2 st.settle ++ le2 st.limit
    let slotOf (c : Option (Fin 18)) : Byte := match c with | none => 0xFF | some ch => num ch.val
    let companions (l : List Companion) : List Byte := (List.range 3).flatMap fun j => match l[j]? with
      | none => zeros 4
      | some c => [num c.channel.val, 0] ++ le2 c.reading
    let body (b : Option LockBody) : List Byte := match b with
      | none => zeros 18
      | some b => [b.captureId, num b.companions.length] ++ le2 b.trigger ++ le2 b.threshold ++ companions b.companions
    let item (k : Fin 4) : Nat :=
      if s.fault.phase ≠ none ∧ (s.fault.work.head?.map WorkItem.slot) = some k then 4
      else if ∃ i ∈ s.fault.work, i.slot = k then 8 else 0
    let held (code : Byte) (k : Fin 4) (e : Fin 32) (mask : Byte) (serial : Half) (b : Option LockBody) : List Byte :=
      [code, num (bit b.isSome 2 + item k), num e.val, mask] ++ le2 serial ++ body b ++ zeros 40
    page 0x00 0 = entry s.entryStaging ++ zeros 36 ∧
    (∀ n : Fin 32,
      let e := s.entries[n]
      let code : Byte := match e.state with
        | .off => 0 | .idle => 1 | .pending => 2 | .asserted => 3 | .recovering => 4 | .releasable => 5 | .locked => 6
      page (0x01 + n.val) 0 = entry e.config ++ zeros 4 ++
        [code, num (bit e.pendingLoad.isSome 1 + bit e.lastCapture.isSome 2), e.lastCapture.getD 0, e.assertions,
          e.transients, 0] ++ left e.dwellTimer ++ left e.recoveryTimer ++ zeros 22) ∧
    page 0x21 0 = [s.scan.channelStaging.kind, 0] ++ le2 s.scan.channelStaging.gain ++
      le2 s.scan.channelStaging.offset ++ [s.scan.channelStaging.weight] ++ zeros 57 ∧
    (∀ ch : Fin 18,
      let c := s.scan.channels[ch]
      let kind : Byte := match c.kind with
        | .voltage => 0 | .current => 1 | .temperature => 2
      page (0x22 + ch.val) 0 = record s.records[channelSource ch] ++ [kind, 0] ++ le2 c.gain ++ le2 c.offset ++
        [num c.weight.val] ++ zeros 41) ∧
    (∀ d : Fin 4,
      let c := s.derivedInForce[d]
      let op : Byte := match c.op with
        | .none => 0 | .sum => 1 | .difference => 2 | .product => 3 | .maxOf => 4 | .minOf => 5
      page (0x34 + d.val) 0 = record s.records[derivedSource d] ++ [op, c.a, c.b, c.weight] ++ zeros 44) ∧
    page 0x38 0 = switch s.switchStaging ++ zeros 52 ∧
    (∀ i : Fin 8,
      let w := s.switches[i]
      let code : Byte := match w.state with
        | .off => 0 | .ramping => 1 | .on => 2 | .blocked => 3 | .tripped => 4 | .failed => 5
      page (0x39 + i.val) 0 = switch w.config ++ zeros 4 ++ [num (bit w.demand 1), code, num (bit w.discharged 1), 0] ++
        left w.rampTimer ++ zeros 2 ++ ((List.range 5).map fun j => w.holds.extractLsb' (8 * j) 8) ++ zeros 35) ∧
    page 0x41 0 = timings s.seq.upList ∧ page 0x41 1 = switches s.seq.upList ∧
    page 0x42 0 = timings s.seq.downList ∧ page 0x42 1 = switches s.seq.downList ∧
    page 0x43 0 = staged s.seq.staging.up.toList ∧ page 0x43 1 = staged s.seq.staging.down.toList ∧
    page 0x43 2 = [s.seq.staging.upLength, s.seq.staging.downLength] ++ zeros 14 ++
      s.seq.staging.up.toList.map StagedSeqStep.switch ++ s.seq.staging.down.toList.map StagedSeqStep.switch ++
      zeros 16 ∧
    page 0x44 0 = [s.scan.staging.length, 0, 0, 0] ++
      (s.scan.staging.steps.toList.flatMap fun u => [u.a, u.b, u.c, u.settle]) ++ zeros 12 ∧
    page 0x45 0 = [num s.scan.list.length, 0, 0, 0] ++
      ((List.range 12).flatMap fun j => match s.scan.list[j]? with
        | none => zeros 4
        | some u => [slotOf u.a, slotOf u.b, slotOf u.c, num u.settle.val]) ++ zeros 12 ∧
    (∀ j, j < 8 → page (0x46 + j) 0 = match s.captures.records[j]? with
      | none => zeros 64
      | some r => [num (1 + bit r.pinned 2), 0, num r.entry.val, 0, 0, 0] ++
          body (some { captureId := r.id, trigger := r.trigger, threshold := r.threshold, companions := r.companions }) ++
          le4 r.timestamp ++ le4 r.frame ++ zeros 32) ∧
    (∀ k : Fin 4, page (0x4E + k.val) 0 = match s.fault.slots[k] with
      | .empty cleanup => [0, num (bit cleanup 1)] ++ zeros 62
      | .writing e mask serial b => held 1 k e mask (serial.getD 0) (some b)
      | .valid h b => held 2 k h.entry h.mask h.serial b
      | .erasing h b => held 3 k h.entry h.mask h.serial b) ∧
    page 0x52 0 = (s.derivedWritten.toList.flatMap fun w => [w.op, w.a, w.b, w.weight]) ++ zeros 48 ∧
    (∀ p q, 0x53 ≤ p ∨ 3 ≤ q ∨ (0 < q ∧ p ≠ 0x41 ∧ p ≠ 0x42 ∧ p ≠ 0x43) ∨ (q = 2 ∧ p ≠ 0x43) → page p q = zeros 64) ∧
    ∀ off, off < 64 →
      let p := s.port.page.toNat
      let q := s.port.part.toNat
      let config : List (Nat × Nat) := [(0x04, 2), (0x06, 2), (0x08, 2), (0x0C, 2), (0x16, 2), (0x19, 3)]
      let figures : List (Nat × Nat) := [(0x08, 2), (0x0A, 2), (0x0C, 12)]
      let fields : List (Nat × Nat) :=
        if p = 0x41 ∨ p = 0x42 ∨ p = 0x43 then
          if q = 0 ∨ (q = 1 ∧ p = 0x43) then (List.range 32).map fun j => (2 * j, 2) else []
        else if q ≠ 0 then []
        else if p = 0x00 then config
        else if p ≤ 0x20 then config ++ [(0x26, 2), (0x28, 2)]
        else if p = 0x21 then [(0x02, 2), (0x04, 2)]
        else if p ≤ 0x37 then [(0x02, 2), (0x04, 2), (0x06, 2), (0x08, 2), (0x0A, 4), (0x0E, 2), (0x10, 8)]
        else if p = 0x38 then [(0x02, 2), (0x04, 2), (0x06, 2), (0x08, 2)]
        else if p ≤ 0x40 then [(0x02, 2), (0x04, 2), (0x06, 2), (0x08, 2), (0x14, 2), (0x18, 5)]
        else if 0x46 ≤ p ∧ p ≤ 0x4D then figures ++ [(0x18, 4), (0x1C, 4)]
        else if 0x4E ≤ p ∧ p ≤ 0x51 then (0x04, 2) :: figures
        else []
      s.port.fieldLength (0x40 + off) = fields.lookup off

/-- The writable global registers without a rule of effect of their own (R172, R173): ARG0 to ARG3, COMMAND tag without its
bits 7 to 4, PAGE, and PART for 0 to 3 take the byte; a PART above 3 and a byte for a read-only register, for the head-event
area or for 0x80 to 0xFF is ignored. Each byte is acknowledged and the pointer advances (R168). -/
def Obligations.GlobalRegisterWrites : Prop :=
  ∀ (s : State) (a v : Byte), s.byteTakenAt a →
    (a = 0x04 → exec (.registerWrite v) s = .next ({ s with port := { s.port with arg0 := v } } : State).acknowledged) ∧
    (a = 0x05 → exec (.registerWrite v) s = .next ({ s with port := { s.port with arg1 := v } } : State).acknowledged) ∧
    (a = 0x06 → exec (.registerWrite v) s = .next ({ s with port := { s.port with arg2 := v } } : State).acknowledged) ∧
    (a = 0x07 → exec (.registerWrite v) s = .next ({ s with port := { s.port with arg3 := v } } : State).acknowledged) ∧
    (a = 0x08 → exec (.registerWrite v) s =
      .next ({ s with port := { s.port with tag := v.extractLsb' 0 4 } } : State).acknowledged) ∧
    (a = 0x0E → exec (.registerWrite v) s = .next ({ s with port := { s.port with page := v } } : State).acknowledged) ∧
    (a = 0x1E → v.toNat ≤ 3 → exec (.registerWrite v) s =
      .next ({ s with port := { s.port with part := BitVec.ofNat 2 v.toNat } } : State).acknowledged) ∧
    (a = 0x1E → 3 < v.toNat → exec (.registerWrite v) s = .next s.acknowledged) ∧
    (a ∈ ([0x00, 0x01, 0x02, 0x03, 0x0A, 0x0B, 0x0C, 0x0F, 0x10, 0x14, 0x15, 0x16, 0x17, 0x18, 0x19, 0x1A, 0x1B, 0x1C,
        0x1D, 0x1F] : List Byte) ∨ (0x20 ≤ a.toNat ∧ a.toNat < 0x40) ∨ 0x80 ≤ a.toNat →
      exec (.registerWrite v) s = .next s.acknowledged)

/-- A byte written to a staging page reads back as written at its place where the layout gives that place a field, and
every other byte of the page stays (R11, R51, R72, R95, R98, R121, R176 to R180); a byte written to any other page is
ignored. PAGE and PART select the page before and after alike. -/
def Obligations.PagedWritesReadBack : Prop :=
  ∀ (s t : State) (a v : Byte) (off : Nat), s.byteTakenAt a → a.toNat = 0x40 + off → off < 0x40 →
    exec (.registerWrite v) s = .next t →
    let page := s.port.page.toNat
    let part := s.port.part.toNat
    let fieldByte : Bool :=
      (page == 0x00 && part == 0 && decide (off ≤ 0x1B) && off != 0x0B && off != 0x15) ||
      (page == 0x21 && part == 0 && decide (off ≤ 0x06) && off != 0x01) ||
      (page == 0x38 && part == 0 && decide (off ≤ 0x0B)) ||
      (page == 0x43 && (decide (part ≤ 1) || (part == 2 && (decide (off ≤ 1) || decide (0x10 ≤ off ∧ off < 0x30))))) ||
      (page == 0x44 && part == 0 && (off == 0 || decide (4 ≤ off ∧ off < 52))) ||
      (page == 0x52 && part == 0 && decide (off < 16))
    (fieldByte = true → t.pageByte page part off = v) ∧
    (fieldByte = false → t = s.acknowledged) ∧
    ∀ q p o, o < 0x40 → (q, p, o) ≠ (page, part, off) → t.pageByte q p o = s.pageByte q p o

/-- The steps of a transfer other than a command or a register's own write touch the port alone, and of the port
neither RESULT, the ARG registers, the tag, PAGE, PART, the address nor the held low byte: reading has no effect on
any state but the pointer and the snapshot, with the line's own observations (R169). Writing a page has no effect on
the part's behaviour: it changes nothing but the staging records, the written derived configurations and the port
(00_scope, Staging and loading; R11, R72, R98, R121). -/
def Obligations.TransfersActOnNothingElse : Prop :=
  (∀ (c : Instr) (s t : State),
    ((∃ service ack, c = .fieldSnapshot service ack ∨ c = .dataByteServed service ack) ∨
      (∃ v, c = .addressByte v ∨ c = .pointerWrite v) ∨ c = .transferEnd ∨ c = .transferTimeout) →
    exec c s = .next t →
    t = { s with
      port :=
        { s.port with
          phase := t.port.phase
          pointer := t.port.pointer
          snapshot := t.port.snapshot
          served := t.port.served
          acked := t.port.acked } }) ∧
  (∀ (s t : State) (v : Byte), exec (.registerWrite v) s = .next t →
    t = { s with
      entryStaging := t.entryStaging
      switchStaging := t.switchStaging
      seq := { s.seq with staging := t.seq.staging }
      scan := { s.scan with staging := t.scan.staging, channelStaging := t.scan.channelStaging }
      derivedWritten := t.derivedWritten
      port := t.port })

/-- The commands, their codes and their refusals (R174). Each of the sixteen codes of the table is its command, and every other
byte is refused with BAD_COMMAND and the byte as detail, in every state of the part (that this holds before the part is ready is
log 21). A refused command changes no state, with the exception that RESULT is written: whatever the code, unless RESULT shows
OK or ACCEPTED, the state after it is the state before with RESULT and the acknowledgement. Until the part is ready, every
command but POP EVENT and CLEAR LOSS is refused with NOT_READY, and writes to SCAN_MODE and FRAME_PERIOD are ignored (R184).
The result codes are those of the table. -/
def Obligations.CommandCodesAndRefusals : Prop :=
  let codes : List Byte :=
    [0x10, 0x11, 0x12, 0x13, 0x20, 0x21, 0x30, 0x31, 0x40, 0x41, 0x42, 0x50, 0x60, 0x70, 0x71, 0xA5]
  (∀ service : Bool, codes.map (commandOfCode service) =
    [.scanNow, .loadScanList, .loadChannel, .clearMinmax, .loadEntry, .release, .loadSwitch, .restartSwitch,
      .loadSequence, .powerUp, .powerDown, .dropCaptures, .clearLock service, .popEvent, .clearLoss, .softReset]) ∧
  (∀ (s : State) (service : Bool) (code : Byte), s.commandTaken → code ∉ codes →
    commandOfCode service code = .badCommand code ∧
    exec (.badCommand code) s = .next (s.answered .badCommand code)) ∧
  (∀ (s t : State) (service : Bool) (code : Byte), s.commandTaken → exec (commandOfCode service code) s = .next t →
    t.port.result.code ≠ .ok → t.port.result.code ≠ .accepted →
    t = s.answered t.port.result.code t.port.result.detail) ∧
  (∀ (s : State) (service : Bool) (code v : Byte), s.ready = false →
    (s.commandTaken → code ∈ codes → code ≠ 0x70 → code ≠ 0x71 →
      exec (commandOfCode service code) s = .next (s.answered .notReady 0)) ∧
    (s.byteTakenAt 0x11 → exec (.scanModeWrite v) s = .next s.acknowledged) ∧
    (s.byteTakenAt 0x12 → exec (.framePeriodLowWrite v) s = .next s.acknowledged) ∧
    (s.byteTakenAt 0x13 → exec (.framePeriodHighWrite v) s = .next s.acknowledged)) ∧
  [ResultCode.noCommand, .ok, .accepted, .badCommand, .badArgument, .notReady, .badEntry, .loadPending, .entryBusy,
    .entryLockHeld, .notRecovered, .notAsserted, .switchBusy, .switchState, .seqBusy, .seqIdle, .alreadyUp, .notService,
    .noLock, .lockBusy, .queueEmpty].map ResultCode.code =
    [0x00, 0x01, 0x02, 0x10, 0x11, 0x12, 0x20, 0x21, 0x22, 0x23, 0x24, 0x25, 0x30, 0x31, 0x40, 0x41, 0x42, 0x50, 0x51, 0x52,
      0x60]

/-! ### The Scan Unit and its loads -/

/-- A trigger (R102 to R104): SCAN NOW in every mode, a SYNC edge in SYNC mode and a frame timer expiry in TIMED mode start
a frame in IDLE, set the pending-trigger flag in SCANNING, and with the flag set post SCAN_OVERRUN with the low 16 bits of
the frame number. SCAN NOW is accepted with OK and the detail says which. The frame timer reloads before its
trigger is taken: its next expiry is one period in force after this one, however late this one is taken, so that no second
expiry comes before a tick of the time base unless this one was late. Outside TIMED mode and before it is due it does not expire
(log 11). That it is due with fewer than ten 0.1 ms units left from the last tick is log 8. -/
def Obligations.TriggersTaken : Prop :=
  let flagged (s : State) : State := { s with scan := { s.scan with pendingTrigger := true } }
  let dropped (s : State) : State := s.post .scanOverrun none (s.scan.frameNumber.extractLsb' 0 16) 1
  ∀ s : State,
    (s.commandTaken → s.ready = true →
      (s.scan.scanning = false → exec .scanNow s = .next (s.frameStart.answered .ok 0)) ∧
      (s.scan.scanning = true → s.scan.pendingTrigger = false → exec .scanNow s = .next ((flagged s).answered .ok 1)) ∧
      (s.scan.scanning = true → s.scan.pendingTrigger = true →
        exec .scanNow s = .next ((dropped s).answered .ok 2))) ∧
    (s.inReset = false → s.scan.mode = .sync →
      (s.scan.scanning = false → exec .syncEdge s = .next s.frameStart) ∧
      (s.scan.scanning = true → s.scan.pendingTrigger = false → exec .syncEdge s = .next (flagged s)) ∧
      (s.scan.scanning = true → s.scan.pendingTrigger = true → exec .syncEdge s = .next (dropped s))) ∧
    (s.inReset = false → s.scan.mode ≠ .sync → exec .syncEdge s = .next s) ∧
    (s.scan.mode ≠ .timed ∨ s.scan.frameTimer = none → exec .frameTimerExpiry s = .next s) ∧
    (∀ left : Int, s.scan.frameTimer = some left → 10 ≤ left → exec .frameTimerExpiry s = .next s) ∧
    (∀ (left : Int) (t : State), s.scan.frameTimer = some left → 0 ≤ left → 10 ≤ s.scan.period.toNat →
      s.inReset = false → s.scan.mode = .timed → left < 10 → exec .frameTimerExpiry s = .next t →
      exec .frameTimerExpiry t = .next t) ∧
    ∀ left : Int, s.inReset = false → s.scan.mode = .timed → s.scan.frameTimer = some left → left < 10 →
      let u : State := { s with scan := { s.scan with frameTimer := some (left + s.scan.period.toNat) } }
      (s.scan.scanning = false → exec .frameTimerExpiry s = .next u.frameStart) ∧
      (s.scan.scanning = true → s.scan.pendingTrigger = false → exec .frameTimerExpiry s = .next (flagged u)) ∧
      (s.scan.scanning = true → s.scan.pendingTrigger = true → exec .frameTimerExpiry s = .next (dropped u))

/-- At a frame start, and when the Scan Unit becomes quiet, every pending load is dealt with (R16 to R18, R64, R97, R100, R105,
R108, R117): the pending list and channel load come into force, with the records of the channels they invalidate and the
indicators of the switches that watch those; each entry's load, in ascending entry number, is applied with LOAD_DONE, and its
E-holder joins the mask where it is placed LOCKED, if the entry is not active, and abandoned with LOAD_ABANDONED, the entry's
state as detail and class 1, if it is; at a frame start the frame number rises by one, the derived configurations come into
force (as written with an operation of the six whose operands and weight pass the check, and as the default otherwise; that
operation NONE comes into force as written, checked or not, is the model's reading, log 12), and step 0 begins. Nothing else
changes. -/
def Obligations.PendingLoadsDealtWith : Prop :=
  ∀ (s t : State) (starts : Bool), t = (if starts then s.frameStart else s.becomeQuiet) →
    let list := s.scan.pendingList.getD s.scan.list
    let settled : ScanUnit :=
      { s.scan with
        list := list
        stepIndex := if s.scan.pendingList.isSome then 0 else s.scan.stepIndex
        pendingList := none
        channels := match s.scan.pendingChannel with
          | none => s.scan.channels
          | some (ch, c) => s.scan.channels.set ch c
        pendingChannel := none }
    let gone (ch : Fin 18) : Prop :=
      (s.scan.pendingList.isSome ∧ ch ∉ listChannels list) ∨ s.scan.pendingChannel.map Prod.fst = some ch
    let locks (n : Fin 32) (c : EntryConfig) : Prop :=
      c.enabled ≠ 0 ∧ c.tier = 2 ∧ ∃ k : Fin 4, s.fault.slots[k].names = some n
    let code (e : EntryState) : Half := match e with
      | .off => 0 | .idle => 1 | .pending => 2 | .asserted => 3 | .recovering => 4 | .releasable => 5 | .locked => 6
    let inForce (w : DerivedWritten) : DerivedConfig :=
      match [DerivedOp.none, .sum, .difference, .product, .maxOf, .minOf][w.op.toNat]? with
      | none => { op := .none, a := 0, b := 0, weight := 0 }
      | some op =>
        if op = .none ∨ (w.a.toNat ≤ 17 ∧ w.b.toNat ≤ 17 ∧ w.weight.toNat ≤ 7) then
          { op := op, a := w.a, b := w.b, weight := w.weight }
        else { op := .none, a := 0, b := 0, weight := 0 }
    let applied (n : Fin 32) : Option EntryConfig := if s.entries[n].state.active then none else s.entries[n].pendingLoad
    t = { s with
      scan := t.scan, entries := t.entries, records := t.records, derivedInForce := t.derivedInForce
      queue := t.queue, switches := t.switches } ∧
    t.scan = (if starts then
      { settled with frameNumber := s.scan.frameNumber + 1, scanning := true, stepIndex := 0, sampled := none }
      else settled) ∧
    (∀ n : Fin 32, match s.entries[n].pendingLoad with
      | none => t.entries[n] = s.entries[n]
      | some c =>
        if s.entries[n].state.active then t.entries[n] = { s.entries[n] with pendingLoad := none }
        else t.entries[n] =
          { config := c, state := if c.enabled = 0 then .off else if locks n c then .locked else .idle
            dwellTimer := none, recoveryTimer := none, assertions := 0, transients := 0, lastCapture := none
            pendingLoad := none, dwellRecord := none }) ∧
    t.queue = ((List.finRange 32).foldl (fun u n => match s.entries[n].pendingLoad with
      | none => u
      | some _ =>
        if s.entries[n].state.active then u.post .loadAbandoned (some n.val) (code s.entries[n].state) 1
        else u.post .loadDone (some n.val) 0 0) s).queue ∧
    (∀ i : Fin 8,
      let w : Switch :=
        if ∃ ch : Fin 18, s.switches[i].config.goodChannel.toNat = ch.val ∧ gone ch then
          { s.switches[i] with discharged := false }
        else s.switches[i]
      t.switches[i] = (List.finRange 32).foldl (fun v n =>
        if ∃ c, applied n = some c ∧ locks n c ∧ c.mask.getLsbD i.val = true then v.join (.e n) else v) w) ∧
    (∀ ch : Fin 18,
      if gone ch then
        t.records[channelSource ch] =
          { s.records[channelSource ch] with valid := false, count := 0, clipped := false }
      else t.records[channelSource ch] = s.records[channelSource ch]) ∧
    (starts = true → ∀ d : Fin 4, t.derivedInForce[d] = inForce s.derivedWritten[d] ∧
      (if inForce s.derivedWritten[d] = s.derivedInForce[d] then
        t.records[derivedSource d] = s.records[derivedSource d]
      else t.records[derivedSource d] =
        { s.records[derivedSource d] with valid := false, count := 0, clipped := false })) ∧
    (starts = false → t.derivedInForce = s.derivedInForce ∧
      ∀ d : Fin 4, t.records[derivedSource d] = s.records[derivedSource d])

/-- LOAD SCAN LIST goes through its checks in order, the first that applies giving the result (R99); an accepted list
is applied at once while the Scan Unit is quiet and is pending otherwise (R100). LOAD CHANNEL goes through its checks
in order (R96); an accepted load is applied at once while the Scan Unit is quiet and is pending otherwise (R97). -/
def Obligations.ScanUnitLoads : Prop :=
  (∀ s : State, s.commandTaken → s.ready = true →
    let steps := s.scan.staging.steps.toList.take s.scan.staging.length.toNat
    let channels : List Byte := steps.flatMap fun u => [u.a, u.b, u.c].filter (· != 0xFF)
    let list := steps.map StagedScanStep.toStep
    exec .loadScanList s = .next (
      if s.scan.pendingList ≠ none then s.answered .loadPending 0
      else if s.scan.staging.length = 0 ∨ 12 < s.scan.staging.length.toNat then s.answered .badArgument 1
      else if ∃ u ∈ steps, u.a = 0xFF ∧ u.b = 0xFF ∧ u.c = 0xFF then s.answered .badArgument 2
      else if ∃ u ∈ steps, (u.a ≠ 0xFF ∧ 5 < u.a.toNat) ∨ (u.b ≠ 0xFF ∧ (u.b.toNat < 6 ∨ 11 < u.b.toNat)) ∨
          (u.c ≠ 0xFF ∧ (u.c.toNat < 12 ∨ 17 < u.c.toNat)) then s.answered .badArgument 3
      else if ¬channels.Nodup then s.answered .badArgument 4
      else if ∃ u ∈ steps, 15 < u.settle.toNat then s.answered .badArgument 5
      else if s.scan.mode = .stopped ∧ s.scan.scanning = false then (s.applyList list).answered .ok 0
      else ({ s with scan := { s.scan with pendingList := some list } } : State).answered .accepted 0)) ∧
  (∀ s : State, s.commandTaken → s.ready = true →
    (17 < s.port.arg0.toNat → exec .loadChannel s = .next (s.answered .badArgument 0)) ∧
    ∀ ch : Fin 18, s.port.arg0.toNat = ch.val →
      let staged := s.scan.channelStaging
      (s.scan.pendingChannel ≠ none → exec .loadChannel s = .next (s.answered .loadPending 0)) ∧
      (s.scan.pendingChannel = none →
        (2 < staged.kind.toNat → exec .loadChannel s = .next (s.answered .badArgument 1)) ∧
        (staged.kind.toNat ≤ 2 → 7 < staged.weight.toNat → exec .loadChannel s = .next (s.answered .badArgument 4)) ∧
        ∀ c : ChannelConfig, c.kind.code = staged.kind → c.weight.val = staged.weight.toNat → c.gain = staged.gain →
          c.offset = staged.offset →
          (s.scan.quiet = true → exec .loadChannel s = .next ((s.applyChannel ch c).answered .ok 0)) ∧
          (s.scan.quiet = false → exec .loadChannel s =
            .next (({ s with scan := { s.scan with pendingChannel := some (ch, c) } } : State).answered .accepted 0))))

/-- SCAN_MODE (R101, R173): a value above 2 and the mode in force change nothing; TIMED starts the frame timer with
the period (counted from the last tick, log 8); SYNC and STOPPED stop it; STOPPED clears the pending trigger, and in IDLE the Scan Unit becomes quiet at
once. FRAME_PERIOD (R102, R173): the low byte is held aside; the high byte with it, or with the low byte of the
period in force where none is held, is the new value, ignored below 10, and the held byte is discarded. -/
def Obligations.ScanRegisterWrites : Prop :=
  (∀ (s : State) (v : Byte), s.byteTakenAt 0x11 → s.ready = true →
    (2 < v.toNat ∨ v = s.scan.mode.code → exec (.scanModeWrite v) s = .next s.acknowledged) ∧
    (v = 1 → s.scan.mode ≠ .timed → exec (.scanModeWrite v) s =
      .next ({ s with
        scan := { s.scan with mode := .timed, frameTimer := some s.scan.period.toNat } } : State).acknowledged) ∧
    (v = 2 → s.scan.mode ≠ .sync → exec (.scanModeWrite v) s =
      .next ({ s with scan := { s.scan with mode := .sync, frameTimer := none } } : State).acknowledged) ∧
    (v = 0 → s.scan.mode ≠ .stopped →
      let stopped : State :=
        { s with scan := { s.scan with mode := .stopped, frameTimer := none, pendingTrigger := false } }
      (s.scan.scanning = true → exec (.scanModeWrite v) s = .next stopped.acknowledged) ∧
      (s.scan.scanning = false → exec (.scanModeWrite v) s = .next stopped.becomeQuiet.acknowledged))) ∧
  (∀ (s : State) (v : Byte), s.ready = true →
    (s.byteTakenAt 0x12 → exec (.framePeriodLowWrite v) s =
      .next ({ s with port := { s.port with heldLow := some v } } : State).acknowledged) ∧
    (s.byteTakenAt 0x13 →
      let low : Nat := match s.port.heldLow with
        | some b => b.toNat
        | none => s.scan.period.toNat % 256
      let value := 256 * v.toNat + low
      (value < 10 → exec (.framePeriodHighWrite v) s =
        .next ({ s with port := { s.port with heldLow := none } } : State).acknowledged) ∧
      (10 ≤ value → exec (.framePeriodHighWrite v) s =
        .next ({ s with
          port := { s.port with heldLow := none }
          scan := { s.scan with period := BitVec.ofNat 16 value } } : State).acknowledged)))

/-! ### The Measurement Table -/

/-- CLEAR MINMAX goes through its checks in order: ARG0 above 21 is refused; a valid record gets its minimum and maximum
both set to the latest reading; an invalid record is left as it stands; the detail is 0 (R119). -/
def Obligations.ClearMinmaxResults : Prop :=
  ∀ s : State, s.commandTaken →
    (s.ready = false → exec .clearMinmax s = .next (s.answered .notReady 0)) ∧
    (s.ready = true → 21 < s.port.arg0.toNat → exec .clearMinmax s = .next (s.answered .badArgument 0)) ∧
    ∀ r : Fin 22, s.ready = true → s.port.arg0.toNat = r.val →
      (s.records[r].valid = true → exec .clearMinmax s = .next (({ s with
        records := s.records.set r
          { s.records[r] with minimum := s.records[r].latest, maximum := s.records[r].latest } } : State).answered
            .ok 0)) ∧
      (s.records[r].valid = false → exec .clearMinmax s = .next (s.answered .ok 0))

/-- A step samples once, and completes (R94, R106, R114 to R116): at the completion of every step, the last of a frame
included, the state `t` that its codes leave has each channel of the step sampled into its record, whatever the order in which
the messages are taken, and every other record as it was; neither the Scan Unit, the port, the trip filter, the clock, the
medium nor any configuration moves. A step other than the last then begins the next; what follows the last is the next but one
statement. A channel of a list in force stands in one place of a step (R98), hence the hypothesis. That every message is taken
before the next step is log 3, and that lock-cleared messages on their way are taken first is log 4. -/
def Obligations.StepSamplesAndUpdates : Prop :=
  ∀ (s : State) (a b c : RawCode), s.inReset = false → s.scan.scanning = true →
    (s.scan.sampled = none → exec (.scanStepSample a b c) s =
      .next { s with scan := { s.scan with sampled := some { a := a, b := b, c := c } } }) ∧
    ∀ (x : StepCodes) (st : ScanStep), s.scan.sampled = some x → s.scan.list[s.scan.stepIndex]? = some st →
      st.channels.Nodup →
      let t := s.receiveEngine.handOver x
      (s.scan.stepIndex + 1 < s.scan.list.length → exec .scanStepComplete s =
        .next { t with scan := { s.scan with stepIndex := s.scan.stepIndex + 1, sampled := none } }) ∧
      (s.scan.stepIndex + 1 = s.scan.list.length → ∃ u, exec .scanStepComplete s = .next u ∧
        (s.scan.pendingTrigger = false → s.scan.mode ≠ .stopped →
          ∀ ch : Fin 18, u.records[channelSource ch] = t.records[channelSource ch])) ∧
      (t.scan = s.scan ∧ t.port = s.port ∧ t.trip = s.trip ∧ t.timestamp = s.timestamp ∧ t.ready = s.ready ∧
        t.derivedInForce = s.derivedInForce ∧ t.fault.medium = s.fault.medium ∧
        (∀ n : Fin 32, t.entries[n].config = s.entries[n].config ∧
          t.entries[n].pendingLoad = s.entries[n].pendingLoad) ∧
        ∀ i : Fin 8, t.switches[i].config = s.switches[i].config) ∧
      (∀ ch : Fin 18, ch ∉ st.channels → t.records[channelSource ch] = s.records[channelSource ch]) ∧
      (∀ d : Fin 4, t.records[derivedSource d] = s.records[derivedSource d]) ∧
      ∀ (ch : Fin 18) (code : RawCode),
        (st.a = some ch ∧ code = x.a) ∨ (st.b = some ch ∧ code = x.b) ∨ (st.c = some ch ∧ code = x.c) →
        let old := s.records[channelSource ch]
        let k := s.scan.channels[ch].weight.val
        let sum : Int := (code.toNat * s.scan.channels[ch].gain.toNat / 4096 : Nat) + s.scan.channels[ch].offset.toInt
        let r : Int := min sum 32767
        let new := t.records[channelSource ch]
        new.valid = true ∧ new.latest.toInt = r ∧ new.sampleFrame = s.scan.frameNumber ∧
        new.clipped = decide (32767 < sum) ∧
        (old.valid = false → new.average.toInt = r ∧ new.minimum.toInt = r ∧ new.maximum.toInt = r ∧ new.count = 1) ∧
        (old.valid = true →
          new.average.toInt = old.average.toInt + (r - old.average.toInt).tdiv (2 ^ k) ∧
          new.minimum.toInt = min r old.minimum.toInt ∧ new.maximum.toInt = max r old.maximum.toInt ∧
          new.count.toNat = min (old.count.toNat + 1) 65535)

/-- A sample reaches those who watch its channel, in any step of a frame (R23, R25, R57, R63, R64, R115). With one entry that
names the record and no switch on the channel, the entry takes an evaluation of the updated record. With one switch and no
entry, the switch, if RAMPING and the reading is at or above its good threshold, enters ON and the Sequencer is told, after it has taken what failed switches sent before (log 26); then its
discharged indicator becomes whether the reading is at or below its off threshold, and a change is told to the Sequencer. A
switch whose gate is energised after the update, here by the up step that the other switch of the channel begins on entering
ON with no such message on its way, stays RAMPING whichever of the two takes the update first: its channel has not been sampled again (R56, R79). That all the messages
of the step are taken in it is log 3. -/
def Obligations.SamplesReachTheirWatchers : Prop :=
  ∀ (s : State) (x : StepCodes) (st : ScanStep) (ch : Fin 18), s.scan.list[s.scan.stepIndex]? = some st →
    st.channels = [ch] →
    let c := s.scan.channels[ch]
    let code : RawCode := if st.a = some ch then x.a else if st.b = some ch then x.b else x.c
    let updated : State :=
      { s with
        records := s.records.set (channelSource ch)
          (s.records[channelSource ch].sample (c.convert code) c.weight.val s.scan.frameNumber) }
    let reading := updated.records[channelSource ch].latest
    let names (n : Fin 32) : Prop := s.entries[n].config.source.toNat = ch.val ∧ s.entries[n].state ≠ .off
    let shows (i : Fin 8) : Prop := s.switches[i].config.goodChannel.toNat = ch.val
    ((∀ n, ¬names n) → (∀ i, ¬shows i) → s.handOver x = updated) ∧
    (∀ n : Fin 32, (∀ m, names m ↔ m = n) → (∀ i, ¬shows i) →
      s.handOver x = updated.evaluate (channelSource ch) n) ∧
    (∀ i : Fin 8, (∀ n, ¬names n) → (∀ j, shows j ↔ j = i) →
      let w := s.switches[i]
      let seen : State :=
        if w.state = .ramping ∧ w.config.goodThreshold.toInt ≤ reading.toInt then
          ({ updated with switches := s.switches.set i { w with state := .on, rampTimer := none } } : State).takeFailures.seqSwitchOn i
        else updated
      let low : Bool := decide (reading.toInt ≤ w.config.offThreshold.toInt)
      s.handOver x =
        if seen.switches[i].discharged = low then seen
        else ({ seen with switches := seen.switches.set i { seen.switches[i] with discharged := low } }
          : State).seqIndicator i low) ∧
    (∀ (i j : Fin 8) (p : Nat) (u v : SeqStep), i ≠ j → (∀ n, ¬names n) → (∀ k, shows k ↔ k = i ∨ k = j) →
      s.switches[i].state = .ramping → s.switches[i].config.goodThreshold.toInt ≤ reading.toInt →
      s.seq.state = .poweringUp p .waiting → s.seq.upList[p]? = some u → u.switch = i → u.settle = 0 →
      s.seq.upList[p + 1]? = some v → v.switch = j →
      s.switches[j].state = .off → s.switches[j].demand = false → s.switches[j].holds = 0 → s.seq.failed = [] →
      (s.handOver x).switches[i].state = .on ∧ (s.handOver x).switches[j].state = .ramping ∧
        (s.handOver x).seq.state = .poweringUp (p + 1) .waiting)

/-- The last step's completion takes the frame end (R107): its samples are handed over and the derived channels dealt with, as
the statements before and after this one say, and the Scan Unit stands as before; with no trigger pending the scan state then
becomes IDLE with step index 0, in TIMED and SYNC mode without anything else at the Scan Unit, and in STOPPED mode the Scan Unit
becomes quiet; with a trigger pending the flag is cleared and the next frame starts. That lock-cleared messages on their way are
taken before the samples is log 4, and that every message of the step is taken before the derived channels are dealt with, and
theirs before the next frame starts, is log 3. -/
def Obligations.FrameEndTaken : Prop :=
  ∀ (s : State) (x : StepCodes), s.inReset = false → s.scan.scanning = true → s.scan.sampled = some x →
    s.scan.list.length ≤ s.scan.stepIndex + 1 →
    let ended : State := (s.receiveEngine.handOver x).derivedFrameEnd
    ended.scan = s.scan ∧
    (s.scan.pendingTrigger = true → exec .scanStepComplete s = .next ({ ended with
      scan := { s.scan with scanning := false, stepIndex := 0, sampled := none, pendingTrigger := false }
        } : State).frameStart) ∧
    (s.scan.pendingTrigger = false →
      let idle : State := { ended with scan := { s.scan with scanning := false, stepIndex := 0, sampled := none } }
      (s.scan.mode = .stopped → exec .scanStepComplete s = .next idle.becomeQuiet) ∧
      (s.scan.mode ≠ .stopped → exec .scanStepComplete s = .next idle))

/-- The frame end deals with each derived channel (R122, R123): with operation NONE its record stays as it is; with any other,
it is computed as a sample when both operand records are valid and were sampled in the frame that ends, with the value of its
operation saturated to the reading range, and is otherwise marked stale with its figures kept. The records of channels stay.
Then the entries that name a computed derived source take their evaluations: with none of them nothing but the records has
changed, with one it is that entry's evaluation, and with any number each is taken once, whole, one after the other, in an order
that is free (log 3; the counter of free values advances at each choice); no configuration in force moves. The last step's
completion acts by this frame end on the state that its samples leave: that lock-cleared messages on their way are taken before
those samples is log 4, and that all the step's messages are taken before the derived channels are dealt with is log 3. -/
def Obligations.DerivedChannelAtFrameEnd : Prop :=
  (∀ (s : State) (x : StepCodes), s.inReset = false → s.scan.scanning = true → s.scan.sampled = some x →
    s.scan.stepIndex + 1 = s.scan.list.length → s.scan.pendingTrigger = false → s.scan.mode ≠ .stopped →
    exec .scanStepComplete s = .next { (s.receiveEngine.handOver x).derivedFrameEnd with
      scan := { s.scan with scanning := false, stepIndex := 0, sampled := none } }) ∧
  ∀ s : State,
    let t := s.derivedFrameEnd
    let fresh (d : Fin 4) (a b : Fin 18) : Prop :=
      s.derivedInForce[d].op ≠ .none ∧ s.derivedInForce[d].a.toNat = a.val ∧ s.derivedInForce[d].b.toNat = b.val ∧
        s.records[channelSource a].valid = true ∧ s.records[channelSource a].sampleFrame = s.scan.frameNumber ∧
        s.records[channelSource b].valid = true ∧ s.records[channelSource b].sampleFrame = s.scan.frameNumber
    let evaluated (n : Fin 32) (d : Fin 4) : Prop :=
      (∃ a b, fresh d a b) ∧ s.entries[n].config.source.toNat = 18 + d.val ∧ s.entries[n].state ≠ .off
    (∀ ch : Fin 18, t.records[channelSource ch] = s.records[channelSource ch]) ∧
    (t.derivedInForce = s.derivedInForce ∧ ∀ n : Fin 32, t.entries[n].config = s.entries[n].config) ∧
    (∀ d : Fin 4,
      let c := s.derivedInForce[d]
      let old := s.records[derivedSource d]
      let new := t.records[derivedSource d]
      (c.op = .none → new = old) ∧
      (c.op ≠ .none → (∀ a b, ¬fresh d a b) → new = { old with stale := true }) ∧
      (∀ a b, fresh d a b →
        let x := s.records[channelSource a].latest.toInt
        let y := s.records[channelSource b].latest.toInt
        let value : Int := match c.op with
          | .none => 0
          | .sum => x + y
          | .difference => x - y
          | .product => (x * y).tdiv 1000
          | .maxOf => if x < y then y else x
          | .minOf => if x < y then x else y
        let r : Int := max (-32768) (min value 32767)
        new.valid = true ∧ new.stale = false ∧ new.sampleFrame = s.scan.frameNumber ∧ new.latest.toInt = r ∧
        new.clipped = decide (value < -32768 ∨ 32767 < value) ∧
        (old.valid = false → new.average.toInt = r ∧ new.minimum.toInt = r ∧ new.maximum.toInt = r ∧ new.count = 1) ∧
        (old.valid = true →
          new.average.toInt = old.average.toInt + (r - old.average.toInt).tdiv (2 ^ c.weight.toNat) ∧
          new.minimum.toInt = min r old.minimum.toInt ∧ new.maximum.toInt = max r old.maximum.toInt ∧
          new.count.toNat = min (old.count.toNat + 1) 65535))) ∧
    ((∀ n d, ¬evaluated n d) → t = { s with records := t.records }) ∧
    (∀ n d, (∀ m e, evaluated m e ↔ m = n ∧ e = d) →
      t = ({ s with records := t.records } : State).evaluate (derivedSource d) n) ∧
    ∃ order : List (Fin 32 × Fin 4), order.Nodup ∧ (∀ n d, (n, d) ∈ order ↔ evaluated n d) ∧
      t = { order.foldl (fun u e => u.evaluate (derivedSource e.2) e.1) { s with records := t.records } with
        choice := s.choice + (order.length - 1) }

/-! ### Limit entries -/

/-- The validation of a staged entry (R13): a disabled record passes whatever it holds; an enabled one reports the lowest
number among the fields that fail. -/
def Obligations.EntryValidation : Prop :=
  ∀ (c : EntryConfig) (n : Fin 32) (off : Fin 32 → Bool),
    let listed : List Byte := [c.companion0, c.companion1, c.companion2].take c.companionCount.toNat
    let fails : List Nat :=
      (if 21 < c.source.toNat then [2] else []) ++
      (if 1 < c.valueKind.toNat then [3] else []) ++
      (if 1 < c.direction.toNat then [4] else []) ++
      (if (c.direction = 0 ∧ c.trip.toInt ≤ c.recovery.toInt) ∨ (c.direction = 1 ∧ c.recovery.toInt ≤ c.trip.toInt)
        then [6] else []) ++
      (if 1 < c.recoveryMode.toNat then [8] else []) ++
      (if 2 < c.tier.toNat then [10] else []) ++
      (if (c.tier = 0 ∧ c.mask ≠ 0) ∨ (c.tier = 2 ∧ c.mask = 0) then [11] else []) ++
      (if c.tier = 0 ∧ c.abort ≠ 0 then [12] else []) ++
      (if 3 < c.eventClass.toNat then [13] else []) ++
      (if c.deratePresent ≠ 0 ∧ (31 < c.derateRef.toNat ∨ c.derateRef.toNat = n.val ∨
          ∃ r : Fin 32, c.derateRef.toNat = r.val ∧ off r = true) then [15] else []) ++
      (if 3 < c.companionCount.toNat ∨ (∃ b ∈ listed, 17 < b.toNat) ∨ ¬listed.Nodup then [16] else [])
    (c.enabled = 0 → c.firstFailing n off = none) ∧ (c.enabled ≠ 0 → c.firstFailing n off = fails.head?)

/-- LOAD ENTRY goes through its checks in order (R12, R14); an accepted load is applied as part of the take while the Scan
Unit is quiet, with OK, and is pending otherwise, with ACCEPTED (R15). -/
def Obligations.EntryLoadChecks : Prop :=
  ∀ s : State, s.commandTaken → s.ready = true →
    (31 < s.port.arg0.toNat → exec .loadEntry s = .next (s.answered .badArgument 0)) ∧
    ∀ n : Fin 32, s.port.arg0.toNat = n.val →
      let staged := s.entryStaging
      let e := s.entries[n]
      exec .loadEntry s = .next (
        if e.state = .asserted ∨ e.state = .recovering ∨ e.state = .releasable then s.answered .entryBusy 0
        else if e.state = .locked then s.answered .entryLockHeld 0
        else if e.pendingLoad ≠ none then s.answered .loadPending 0
        else match staged.firstFailing n (fun r => s.entries[r].state == .off) with
          | some field => s.answered .badEntry (BitVec.ofNat 8 field)
          | none =>
            if (∃ k : Fin 4, s.fault.slots[k].names = some n) ∧ ¬(staged.enabled ≠ 0 ∧ staged.tier = 2) then
              s.answered .entryLockHeld 0
            else if s.scan.mode = .stopped ∧ s.scan.scanning = false then (s.applyLoad n staged).answered .ok 0
            else ({ s with entries := s.entries.set n { e with pendingLoad := some staged } } : State).answered
              .accepted 0)

/-- A load applied to an entry (R17): its configuration comes into force, its timers stop, its counts go to 0 and its last
capture id is absent, the pending load is discarded, the new state follows the table, the E-holder joins the mask on entry
to LOCKED, and LOAD_DONE is posted; nothing else changes. -/
def Obligations.EntryLoadApplication : Prop :=
  ∀ (s : State) (n : Fin 32) (c : EntryConfig),
    let held : Prop := ∃ k : Fin 4, s.fault.slots[k].names = some n
    let loaded (x : EntryState) : Entry :=
      { config := c, state := x, dwellTimer := none, recoveryTimer := none, assertions := 0, transients := 0,
        lastCapture := none, pendingLoad := none, dwellRecord := none }
    (c.enabled = 0 → s.applyLoad n c =
      ({ s with entries := s.entries.set n (loaded .off) } : State).post .loadDone (some n.val) 0 0) ∧
    (c.enabled ≠ 0 → c.tier ≠ 2 ∨ ¬held → s.applyLoad n c =
      ({ s with entries := s.entries.set n (loaded .idle) } : State).post .loadDone (some n.val) 0 0) ∧
    (c.enabled ≠ 0 → c.tier = 2 → held → s.applyLoad n c =
      ({ s with
        entries := s.entries.set n (loaded .locked)
        switches := Vector.ofFn fun i =>
          if c.mask.getLsbD i.val then s.switches[i].join (.e n) else s.switches[i] } : State).post .loadDone
            (some n.val) 0 0)

/-- An entry judges an evaluation in its state (R3, R4, R7, R24, R26, R27, R39, R40, R42, R45): the value is the latest
reading or the average of a valid record; the thresholds are shifted by the derate delta while the reference is active, and
saturated. Each row of the tables is one line. Without a valid record nothing is judged. -/
def Obligations.EvaluationByState : Prop :=
  ∀ (s : State) (r : Fin 22) (n : Fin 32),
    let e := s.entries[n]
    let c := e.config
    let v : Reading := if c.valueKind = 1 then s.records[r].average else s.records[r].latest
    let shift : Int := match c.reference with
      | some ref => if s.entries[ref].state.active then c.derateDelta.toInt else 0
      | none => 0
    let tripAt : Int := max (-32768) (min (c.trip.toInt + shift) 32767)
    let recoverAt : Int := max (-32768) (min (c.recovery.toInt + shift) 32767)
    let trip : Prop := if c.direction = 1 then v.toInt ≤ tripAt else tripAt ≤ v.toInt
    let recovered : Prop := if c.direction = 1 then recoverAt < v.toInt else v.toInt < recoverAt
    let d : DwellRecord := { value := v, threshold := BitVec.ofInt 16 tripAt, frame := s.scan.frameNumber }
    let moved (x : EntryState) : Entry :=
      { e with state := x, dwellTimer := none, recoveryTimer := none, dwellRecord := none }
    (s.records[r].valid = false → s.evaluate r n = s) ∧
    (s.records[r].valid = true →
      (e.state = .off ∨ e.state = .locked → s.evaluate r n = s) ∧
      (e.state = .idle ∧ ¬trip → s.evaluate r n = s) ∧
      (e.state = .idle ∧ trip ∧ c.dwell = 0 → s.evaluate r n = s.qualify n d) ∧
      (e.state = .idle ∧ trip ∧ c.dwell ≠ 0 → s.evaluate r n = { s with
        entries := s.entries.set n { e with state := .pending, dwellTimer := some c.dwell, dwellRecord := some d } }) ∧
      (e.state = .pending ∧ trip → s.evaluate r n =
        { s with entries := s.entries.set n { e with dwellRecord := some d } }) ∧
      (e.state = .pending ∧ ¬trip →
        let t : State :=
          { s with entries := s.entries.set n { moved .idle with transients := satSucc8 e.transients } }
        (c.transients = 0 → s.evaluate r n = t) ∧
        (c.transients ≠ 0 → s.evaluate r n =
          t.post .entryTransient (some n.val) ((satSucc8 e.transients).setWidth 16) c.classOf)) ∧
      (e.state = .asserted ∧ ¬recovered → s.evaluate r n = s) ∧
      (e.state = .asserted ∧ recovered ∧ c.recoveryMode = 1 →
        s.evaluate r n = { s with entries := s.entries.set n (moved .releasable) }) ∧
      (e.state = .asserted ∧ recovered ∧ c.recoveryMode ≠ 1 ∧ c.recoveryTime = 0 →
        s.evaluate r n = s.returned n 1) ∧
      (e.state = .asserted ∧ recovered ∧ c.recoveryMode ≠ 1 ∧ c.recoveryTime ≠ 0 → s.evaluate r n =
        { s with entries := s.entries.set n { moved .recovering with recoveryTimer := some c.recoveryTime } }) ∧
      (e.state = .recovering ∨ e.state = .releasable →
        (recovered → s.evaluate r n = s) ∧
        (¬recovered → s.evaluate r n = { s with entries := s.entries.set n (moved .asserted) })))

/-- The dwell timer of a PENDING entry expires and its qualification completes from its dwell record (R28, R30 to
R35): in this order the capture is made, the entry enters LOCKED or ASSERTED with one more assertion and the
capture's id, its E-holder joins the switches of its mask, its event is posted, for tier LOCK the lock is requested,
and with sequence abort the Sequencer is informed. The capture's companions are the channels of the companion list, in list
order, whose records are valid, each with its latest reading (R128). That the expiry comes when no millisecond is left is log 7;
that the engine first takes the lock-cleared messages on their way to it (none, as a rule: then `u` is `s`) is log 4. The
recovery timer of a RECOVERING entry expires: the entry returns to IDLE, its E-holder leaves the switches of its
mask, and ENTRY_RECOVERED is posted with cause TIMER (R38, R40; log 7). An expiry of a stopped dwell or recovery
timer changes nothing (R21; log 11). -/
def Obligations.EntryTimerExpiries : Prop :=
  (∀ (s : State) (n : Fin 32) (d : DwellRecord), s.inReset = false → s.entries[n].state = .pending →
    s.entries[n].dwellTimer = some 0 → s.entries[n].dwellRecord = some d →
    let u := s.receiveEngine
    let e := s.entries[n]
    let lock : Bool := e.config.tier == 2
    let listed : List Byte :=
      [e.config.companion0, e.config.companion1, e.config.companion2].take e.config.companionCount.toNat
    let companions : List Companion := listed.filterMap fun b =>
      if h : b.toNat < 18 then
        let ch : Fin 18 := ⟨b.toNat, h⟩
        if s.records[channelSource ch].valid then some { channel := ch, reading := s.records[channelSource ch].latest }
        else none
      else none
    let made := s.captures.make n lock s.timestamp d companions
    let captured : State :=
      { u with
        captures := made.1
        fault := if lock then
            { u.fault with
              copies := u.fault.copies ++
                [{ entry := n
                   body :=
                    { captureId := made.2.id, trigger := d.value, threshold := d.threshold
                      companions := made.2.companions } }] }
          else u.fault
        entries := u.entries.set n
          { e with
            state := if lock then .locked else .asserted
            dwellTimer := none
            recoveryTimer := none
            assertions := if e.assertions = 255 then 255 else e.assertions + 1
            lastCapture := some made.2.id
            dwellRecord := none }
        switches := Vector.ofFn fun i =>
          if e.config.mask.getLsbD i.val then u.switches[i].join (.e n) else u.switches[i] }
    let posted := captured.post (if lock then .entryLocked else .entryAsserted) (some n.val)
      (made.2.id.setWidth 16) e.config.classOf
    let requested := if lock then posted.lockRequest n e.config.mask else posted
    exec (.dwellExpiry n) s = .next (if e.config.abort = 0 then requested else requested.seqAbort n)) ∧
  (∀ (s : State) (n : Fin 32), s.inReset = false →
    (s.entries[n].state = .recovering → s.entries[n].recoveryTimer = some 0 →
      exec (.recoveryExpiry n) s = .next (s.returned n 1)) ∧
    (s.entries[n].recoveryTimer = none → exec (.recoveryExpiry n) s = .next s) ∧
    (s.entries[n].dwellTimer = none → exec (.dwellExpiry n) s = .next s))

/-- RELEASE goes through its checks in order; in RELEASABLE it is accepted with OK and the entry returns to IDLE with cause
HOST; the detail is 0 in every case (R43 with R38). -/
def Obligations.ReleaseResults : Prop :=
  ∀ s : State, s.commandTaken →
    (s.ready = false → exec .release s = .next (s.answered .notReady 0)) ∧
    (s.ready = true → 31 < s.port.arg0.toNat → exec .release s = .next (s.answered .badArgument 0)) ∧
    ∀ n : Fin 32, s.ready = true → s.port.arg0.toNat = n.val →
      (s.entries[n].state = .off ∨ s.entries[n].state = .idle ∨ s.entries[n].state = .pending →
        exec .release s = .next (s.answered .notAsserted 0)) ∧
      (s.entries[n].state = .asserted ∨ s.entries[n].state = .recovering →
        exec .release s = .next (s.answered .notRecovered 0)) ∧
      (s.entries[n].state = .locked → exec .release s = .next (s.answered .entryLockHeld 0)) ∧
      (s.entries[n].state = .releasable → exec .release s = .next ((s.returned n 2).answered .ok 0))

/-! ### Switches -/

/-- LOAD SWITCH goes through its checks in order (R52); accepted, the configuration comes into force, X is a member exactly
with trip response yes while the line is seen asserted, and the discharged indicator is recomputed from the record of the
new good channel, a change being passed to the Sequencer (R53, R64). Where the byte names no channel, as only a disabled
record may, the new indicator is free (log 6); a trip response above 1 there counts as no (log 19). -/
def Obligations.SwitchLoad : Prop :=
  ∀ s : State, s.commandTaken → s.ready = true →
    (7 < s.port.arg0.toNat → exec .loadSwitch s = .next (s.answered .badArgument 0)) ∧
    ∀ i : Fin 8, s.port.arg0.toNat = i.val →
      let c := s.switchStaging
      let listed : Prop := ∃ st ∈ s.seq.upList ++ s.seq.downList, st.switch = i
      let invalid : Prop := c.enabled ≠ 0 ∧ (17 < c.goodChannel.toNat ∨ c.rampTimeout = 0 ∨ c.dischargeTimeout = 0 ∨
        1 < c.restartMode.toNat ∨ 1 < c.tripResponse.toNat)
      let held : HoldSet :=
        if c.tripResponse = 1 ∧ s.trip.seen = true then s.switches[i].holds ||| Holder.x.mark
        else s.switches[i].holds &&& ~~~Holder.x.mark
      let loaded (free : Nat) : State :=
        { s with
          switches := s.switches.set i { s.switches[i] with config := c, holds := held }
          choice := s.choice + free }
      let shown (free : Nat) (v : Bool) : State :=
        if s.switches[i].discharged = v then loaded free
        else ({ loaded free with
          switches := s.switches.set i { s.switches[i] with config := c, holds := held, discharged := v } }
            : State).seqIndicator i v
      (s.switches[i].state ≠ .off ∨ (c.enabled = 0 ∧ listed) →
        exec .loadSwitch s = .next (s.answered .switchBusy 0)) ∧
      (s.switches[i].state = .off → ¬(c.enabled = 0 ∧ listed) → invalid →
        exec .loadSwitch s = .next (s.answered .badArgument 0)) ∧
      (s.switches[i].state = .off → ¬(c.enabled = 0 ∧ listed) → ¬invalid →
        (∀ ch : Fin 18, c.goodChannel.toNat = ch.val →
          let rec_ := s.records[channelSource ch]
          exec .loadSwitch s = .next
            ((shown 0 (rec_.valid && decide (rec_.latest.toInt ≤ c.offThreshold.toInt))).answered .ok 0)) ∧
        (17 < c.goodChannel.toNat → ∃ v, exec .loadSwitch s = .next ((shown 1 v).answered .ok 0)))

/-- RESTART SWITCH goes through its checks in order (R60): a switch in TRIPPED or FAILED ramps with its ramp timeout if its
hold set is empty and is BLOCKED if it is not (R59); every other state refuses it. The detail is 0. -/
def Obligations.RestartSwitchResults : Prop :=
  ∀ s : State, s.commandTaken →
    (s.ready = false → exec .restartSwitch s = .next (s.answered .notReady 0)) ∧
    (s.ready = true → 7 < s.port.arg0.toNat → exec .restartSwitch s = .next (s.answered .badArgument 0)) ∧
    ∀ i : Fin 8, s.ready = true → s.port.arg0.toNat = i.val →
      let w := s.switches[i]
      (w.state = .off ∨ w.state = .ramping ∨ w.state = .on ∨ w.state = .blocked →
        exec .restartSwitch s = .next (s.answered .switchState 0)) ∧
      (w.state = .tripped ∨ w.state = .failed →
        (w.holds = 0 → exec .restartSwitch s = .next (({ s with
          switches := s.switches.set i { w with state := .ramping, rampTimer := some w.config.rampTimeout }
            } : State).answered .ok 0)) ∧
        (w.holds ≠ 0 → exec .restartSwitch s = .next (({ s with
          switches := s.switches.set i { w with state := .blocked, rampTimer := none } } : State).answered .ok 0)))

/-- Demand, joins and leaves move one switch by the tables of R56 to R59, and nothing else of it changes but its hold set
(R65): a join adds the holder and a leave removes it; only a set that becomes non-empty or empty moves the state. -/
def Obligations.SwitchMovesByTheTables : Prop :=
  ∀ (w : Switch) (h : Holder),
    let ramp (v : Switch) : Switch := { v with state := .ramping, rampTimer := some w.config.rampTimeout }
    let rest (v : Switch) (x : SwitchState) : Switch := { v with state := x, rampTimer := none }
    (w.demand = true → w.takeDemand true = w) ∧
    (w.demand = false → w.takeDemand false = w) ∧
    (w.demand = false → w.state = .off →
      w.takeDemand true =
        if w.holds = 0 then ramp { w with demand := true } else rest { w with demand := true } .blocked) ∧
    (w.demand = true → w.takeDemand false = rest { w with demand := false } .off) ∧
    (let v : Switch := { w with holds := w.holds ||| (1#37 <<< h.index) }
     (w.holds ≠ 0 → w.join h = v) ∧
     (w.holds = 0 → w.state = .ramping ∨ w.state = .on ∨ w.state = .tripped → w.join h = rest v .blocked) ∧
     (w.state = .off ∨ w.state = .failed ∨ w.state = .blocked → w.join h = v)) ∧
    (let v : Switch := { w with holds := w.holds &&& ~~~(1#37 <<< h.index) }
     (w.holds = 0 ∨ v.holds ≠ 0 → w.leave h = v) ∧
     (w.holds ≠ 0 → v.holds = 0 → w.state = .blocked →
       w.leave h = if w.config.restartMode = 1 then rest v .tripped else ramp v) ∧
     (w.state ≠ .blocked → w.leave h = v))

/-- The ramp timer of a RAMPING switch expires (R57): the switch enters FAILED, SWITCH_RAMP_FAIL is posted, and the Sequencer is
sent a message (R63), which it takes at once or later (log 26 for how much later). Taken in POWERING_UP with the switch's demand
ON the message begins a power-down with cause RAMP; otherwise it has no effect (R89). With the timer stopped nothing changes
(R55). A step-limit expiry taken before the message begins the power-down with cause TIMEOUT, and the message then has no effect;
taken after it, it does not happen; SWITCH_RAMP_FAIL is posted in both orders, here by the ramp expiry (R80). That an expiry
comes when no millisecond is left is log 7. -/
def Obligations.RampTimeout : Prop :=
  (∀ s : State,
    let none_ : State := { s with seq := { s.seq with failed := [] } }
    s.takeFailures = s.seq.failed.foldl (fun u i => match u.seq.state with
      | .poweringUp _ _ => if u.switches[i].demand then u.powerDown (.ramp i) else u
      | _ => u) none_ ∧
    (s.seq.failed = [] → s.takeFailures = s) ∧
    ((∀ j p, s.seq.state ≠ .poweringUp j p) → s.takeFailures = none_)) ∧
  ∀ (s : State) (i : Fin 8), s.inReset = false →
    (s.switches[i].rampTimer = none → exec (.rampTimerExpiry i) s = .next s) ∧
    (s.switches[i].state = .ramping → s.switches[i].rampTimer = some 0 →
      let failed := ({ s with
        switches := s.switches.set i { s.switches[i] with state := .failed, rampTimer := none }
        choice := s.choice + 1 } : State).post .switchRampFail (some i.val) 0 2
      let waits : State := { failed with seq := { s.seq with failed := s.seq.failed ++ [i] } }
      (exec (.rampTimerExpiry i) s = .next waits ∨ exec (.rampTimerExpiry i) s = .next waits.takeFailures) ∧
      (s.seq.failed = [] →
        ((∀ j p, s.seq.state ≠ .poweringUp j p) ∨ s.switches[i].demand = false → waits.takeFailures = failed) ∧
        ((∃ j p, s.seq.state = .poweringUp j p) → s.switches[i].demand = true →
          waits.takeFailures = failed.powerDown (.ramp i))) ∧
      (∀ j st, s.seq.state = .poweringUp j .waiting → s.seq.upList[j]? = some st → s.seq.stepLimit = some 0 →
        (∃ t, exec .stepLimitExpiry waits = .next t ∧
          t = (waits.post .seqStepTimeout (some j) (BitVec.ofNat 16 st.switch.val) 2).powerDown (.timeout j) ∧
          t.seq.outcome = .abortTimeout j ∧ t.takeFailures = { t with seq := { t.seq with failed := [] } }) ∧
        (s.switches[i].demand = true →
          exec .stepLimitExpiry waits.takeFailures = .next waits.takeFailures)))

/-- The trip-line filter changes its seen state (R68): X joins, or leaves, every switch whose trip response is yes, and
TRIP_LINE_ASSERTED (class 3) or TRIP_LINE_RELEASED (class 1) is posted, but for the first change of a line low from the
end of reset on (R69). A row that repeats the seen state changes nothing (log 11). -/
def Obligations.TripLineChanges : Prop :=
  ∀ (s : State) (sinceReset : Bool), s.inReset = false →
    let moved (seen : Bool) (f : Switch → Switch) : State :=
      { s with
        trip := { seen := seen, lowAtResetEnd := false }
        switches := Vector.ofFn fun i =>
          if s.switches[i].config.tripResponse = 1 then f s.switches[i] else s.switches[i] }
    (s.trip.seen = false →
      (¬(sinceReset = true ∧ s.trip.lowAtResetEnd = true) → exec (.tripFilterAssert sinceReset) s =
        .next ((moved true fun w => w.join .x).post .tripLineAsserted none 0 3)) ∧
      (sinceReset = true → s.trip.lowAtResetEnd = true →
        exec (.tripFilterAssert sinceReset) s = .next (moved true fun w => w.join .x)) ∧
      exec .tripFilterRelease s = .next s) ∧
    (s.trip.seen = true →
      exec .tripFilterRelease s = .next ((moved false fun w => w.leave .x).post .tripLineReleased none 0 1) ∧
      exec (.tripFilterAssert sinceReset) s = .next s)

/-! ### Sequencer -/

/-- LOAD SEQUENCE goes through its checks in order, the first that applies giving the result and the detail (R73); an
accepted load replaces both lists and changes nothing else (R74). -/
def Obligations.SequenceLoad : Prop :=
  ∀ s : State, s.commandTaken → s.ready = true →
    let q := s.seq.staging
    let ups : List StagedSeqStep := q.up.toList.take q.upLength.toNat
    let downs : List StagedSeqStep := q.down.toList.take q.downLength.toNat
    let names (l : List StagedSeqStep) : List Byte := l.map StagedSeqStep.switch
    exec .loadSequence s = .next (
      if s.seq.state.code = 2 ∨ s.seq.state.code = 3 ∨ s.seq.state.code = 4 then s.answered .seqBusy 0
      else if q.upLength = 0 ∨ 16 < q.upLength.toNat then s.answered .badArgument 1
      else if q.downLength = 0 ∨ 16 < q.downLength.toNat then s.answered .badArgument 2
      else if ∃ b ∈ names ups ++ names downs, 7 < b.toNat then s.answered .badArgument 3
      else if ¬(names ups).Nodup then s.answered .badArgument 4
      else if ¬(names downs).Nodup then s.answered .badArgument 5
      else if ∃ i : Fin 8, BitVec.ofNat 8 i.val ∈ names ups ++ names downs ∧ s.switches[i].config.enabled = 0 then
        s.answered .badArgument 6
      else if ∃ b ∈ names ups, b ∉ names downs then s.answered .badArgument 7
      else ({ s with
        seq := { s.seq with upList := ups.map StagedSeqStep.toStep, downList := downs.map StagedSeqStep.toStep }
          } : State).answered .ok 0)

/-- POWER UP and POWER DOWN go through their checks in order; the detail is 0 in every case (R84, R86). An accepted POWER
UP begins up step 0; an accepted POWER DOWN begins a power-down with cause HOST. -/
def Obligations.PowerCommands : Prop :=
  ∀ s : State, s.commandTaken →
    (s.ready = false → exec .powerUp s = .next (s.answered .notReady 0) ∧
      exec .powerDown s = .next (s.answered .notReady 0)) ∧
    (s.ready = true →
      (s.seq.state = .notReady → exec .powerUp s = .next (s.answered .notReady 0) ∧
        exec .powerDown s = .next (s.answered .notReady 0)) ∧
      (∀ i p, s.seq.state = .poweringUp i p → exec .powerUp s = .next (s.answered .seqBusy 0) ∧
        exec .powerDown s = .next ((s.powerDown .host).answered .accepted 0)) ∧
      (∀ i p c, s.seq.state = .poweringDown i p c → exec .powerUp s = .next (s.answered .seqBusy 0) ∧
        exec .powerDown s = .next (s.answered .seqBusy 0)) ∧
      (s.seq.state = .running → exec .powerUp s = .next (s.answered .alreadyUp 0) ∧
        exec .powerDown s = .next ((s.powerDown .host).answered .accepted 0)) ∧
      (s.seq.state = .standby → exec .powerDown s = .next (s.answered .seqIdle 0) ∧
        (s.seq.upList = [] → exec .powerUp s = .next (s.answered .badArgument 0)) ∧
        (s.seq.upList ≠ [] → exec .powerUp s = .next ((s.beginUp 0).answered .accepted 0))))

/-- The steps of a sequence (R77, R78, R81, R85, R87, R91, R92). An up step sets its switch's demand ON and waits, with the
step-limit timer if its limit is 1 or more. A down step sets its switch's demand OFF; with the discharged indicator false
it starts the discharge timer; with it true it settles, and with settle delay 0 the next step begins in the same event.
Past the last step the Sequencer is RUNNING with SEQ_UP_DONE, or STANDBY with SEQ_DOWN_DONE: its detail has the cause in the
low byte, 1 HOST, 2 ENTRY, 3 RAMP, 4 TIMEOUT, and the cause's number in the high byte (R175), and its class is 1 for HOST and 2
for the others. A power-down stops the timers, records the cause, sets the last outcome, DOWN_HOST, ABORT_ENTRY(n),
ABORT_RAMP(s) or ABORT_TIMEOUT(i), and begins down step 0. -/
def Obligations.SequenceSteps : Prop :=
  ∀ (s : State) (i : Nat) (cause : DownCause) (st : SeqStep),
    let with_ (x : SeqState) (limit discharge settle : Timer) (sw : Vector Switch 8) : State :=
      { s with
        seq := { s.seq with state := x, stepLimit := limit, discharge := discharge, settle := settle }
        switches := sw }
    let ended : Half × Fin 4 × LastOutcome :=
      match cause with
      | .host => (0x0001, 1, .downHost)
      | .entry n => (BitVec.ofNat 16 (256 * n.val + 2), 2, .abortEntry n)
      | .ramp j => (BitVec.ofNat 16 (256 * j.val + 3), 2, .abortRamp j)
      | .timeout j => (BitVec.ofNat 16 (256 * j + 4), 2, .abortTimeout j)
    (s.seq.upList[i]? = some st → s.beginUp i =
      with_ (.poweringUp i .waiting) (if st.limit = 0 then none else some st.limit) none none
        (s.switches.set st.switch (s.switches[st.switch].takeDemand true))) ∧
    (s.seq.upList.length ≤ i → s.beginUp i =
      ({ s with
        seq := { s.seq with state := .running, stepLimit := none, discharge := none, settle := none, outcome := .upDone }
          } : State).post .seqUpDone none 0 0) ∧
    (s.seq.downList[i]? = some st →
      let off := s.switches.set st.switch (s.switches[st.switch].takeDemand false)
      (s.switches[st.switch].discharged = false → s.beginDown cause i =
        with_ (.poweringDown i .waiting cause) none (some s.switches[st.switch].config.dischargeTimeout) none off) ∧
      (s.switches[st.switch].discharged = true → st.settle ≠ 0 → s.beginDown cause i =
        with_ (.poweringDown i .settling cause) none none (some st.settle) off) ∧
      (s.switches[st.switch].discharged = true → st.settle = 0 → s.beginDown cause i =
        (with_ (.poweringDown i .waiting cause) none none none off).beginDown cause (i + 1))) ∧
    (s.seq.downList.length ≤ i → s.beginDown cause i =
      (with_ .standby none none none s.switches).post .seqDownDone none ended.1 ended.2.1) ∧
    s.powerDown cause = ({ s with
      seq :=
        { s.seq with
          state := .poweringDown 0 .waiting cause, stepLimit := none, discharge := none, settle := none
          outcome := ended.2.2 } } : State).beginDown cause 0

/-- What the Sequencer is told (R35, R63, R79, R82, R88): an entry that aborts begins a power-down in POWERING_UP and
RUNNING and nothing elsewhere; the current up step's switch entering ON, in WAITING, and the current down step's
indicator becoming true, in WAITING, meet the step's condition; every other such message changes nothing. The
Sequencer's timers expire (R77, R79, R82): a step limit in WAITING of an up step posts SEQ_STEP_TIMEOUT and begins a
power-down with cause TIMEOUT; a discharge timer in WAITING of a down step posts DISCHARGE_TIMEOUT and the step goes
on as if discharged; a settle timer completes its step and the next begins. A stopped timer does not expire. That an
expiry comes when no millisecond is left is log 7. -/
def Obligations.SequencerEvents : Prop :=
  (∀ (s : State) (n : Fin 32) (i : Fin 8) (st : SeqStep),
    ((∃ j p, s.seq.state = .poweringUp j p) ∨ s.seq.state = .running → s.seqAbort n = s.powerDown (.entry n)) ∧
    (s.seq.state = .notReady ∨ s.seq.state = .standby ∨ (∃ j p c, s.seq.state = .poweringDown j p c) →
      s.seqAbort n = s ∧ s.seqSwitchFailed i = s ∧ s.seqSwitchOn i = s) ∧
    (s.seq.state = .running → s.seqSwitchFailed i = s ∧ s.seqSwitchOn i = s) ∧
    (∀ j, s.seq.state = .poweringUp j .waiting → s.seq.upList[j]? = some st →
      (st.switch ≠ i → s.seqSwitchOn i = s) ∧
      (st.switch = i → st.settle = 0 → s.seqSwitchOn i = s.beginUp (j + 1)) ∧
      (st.switch = i → st.settle ≠ 0 → s.seqSwitchOn i = { s with
        seq :=
          { s.seq with
            state := .poweringUp j .settling, stepLimit := none, discharge := none, settle := some st.settle } })) ∧
    (∀ j, s.seq.state = .poweringUp j .settling → s.seqSwitchOn i = s) ∧
    ((∀ j c, s.seq.state ≠ .poweringDown j .waiting c) → ∀ v, s.seqIndicator i v = s) ∧
    (∀ j c, s.seq.state = .poweringDown j .waiting c → s.seq.downList[j]? = some st →
      s.seqIndicator i false = s ∧
      (st.switch ≠ i → s.seqIndicator i true = s) ∧
      (st.switch = i → st.settle = 0 → s.seqIndicator i true = s.beginDown c (j + 1)) ∧
      (st.switch = i → st.settle ≠ 0 → s.seqIndicator i true = { s with
        seq :=
          { s.seq with
            state := .poweringDown j .settling c, stepLimit := none, discharge := none, settle := some st.settle } }))) ∧
  (∀ s : State, s.inReset = false →
    (s.seq.stepLimit = none → exec .stepLimitExpiry s = .next s) ∧
    (s.seq.discharge = none → exec .dischargeTimerExpiry s = .next s) ∧
    (s.seq.settle = none → exec .settleTimerExpiry s = .next s) ∧
    (∀ i st, s.seq.state = .poweringUp i .waiting → s.seq.upList[i]? = some st → s.seq.stepLimit = some 0 →
      exec .stepLimitExpiry s =
        .next ((s.post .seqStepTimeout (some i) (BitVec.ofNat 16 st.switch.val) 2).powerDown (.timeout i))) ∧
    (∀ i c st, s.seq.state = .poweringDown i .waiting c → s.seq.downList[i]? = some st → s.seq.discharge = some 0 →
      let posted := s.post .dischargeTimeout (some st.switch.val) 0 1
      (st.settle = 0 → exec .dischargeTimerExpiry s = .next (posted.beginDown c (i + 1))) ∧
      (st.settle ≠ 0 → exec .dischargeTimerExpiry s = .next { posted with
        seq :=
          { s.seq with
            state := .poweringDown i .settling c, stepLimit := none, discharge := none, settle := some st.settle } })) ∧
    (s.seq.settle = some 0 →
      (∀ i, s.seq.state = .poweringUp i .settling → exec .settleTimerExpiry s = .next (s.beginUp (i + 1))) ∧
      (∀ i c, s.seq.state = .poweringDown i .settling c →
        exec .settleTimerExpiry s = .next (s.beginDown c (i + 1)))))

/-! ### Capture Store -/

/-- The store makes the record of a qualification (R128 to R131): full, it first loses its oldest unpinned record, and no
other; the new record is the newest, carries the first id from the next-id counter on that no record held carries, and is
pinned exactly for tier LOCK with fewer than four pinned; the counter goes one past that id. -/
def Obligations.CaptureMade : Prop :=
  ∀ (c : CaptureStore) (entry : Fin 32) (lock : Bool) (now : Word) (d : DwellRecord) (companions : List Companion),
    c.sound →
    let made := c.make entry lock now d companions
    let ids := c.records.map CaptureRecord.id
    ∃ kept : List CaptureRecord,
      made.1 = { records := made.2 :: kept, nextId := made.2.id + 1 } ∧
      made.2 =
        { id := made.2.id
          entry := entry
          timestamp := now
          frame := d.frame
          trigger := d.value
          threshold := d.threshold
          companions := companions
          pinned := lock && decide ((c.records.filter CaptureRecord.pinned).length < 4) } ∧
      made.2.id ∉ ids ∧
      (∃ tries, tries ≤ 8 ∧ made.2.id = c.nextId + BitVec.ofNat 8 tries ∧
        ∀ j, j < tries → c.nextId + BitVec.ofNat 8 j ∈ ids) ∧
      (c.records.length < 8 → kept = c.records) ∧
      (c.records.length = 8 → ∃ newer older r, c.records = newer ++ r :: older ∧ r.pinned = false ∧
        (∀ x ∈ older, x.pinned = true) ∧ kept = newer ++ older)

/-- DROP CAPTURES: not ready it is refused; otherwise it is accepted with OK, removes every unpinned record held, keeps the
pinned ones in order and the next-id counter, and answers the number removed (R134). -/
def Obligations.DropCapturesResults : Prop :=
  ∀ s : State, s.commandTaken →
    (s.ready = false → exec .dropCaptures s = .next (s.answered .notReady 0)) ∧
    (s.ready = true → exec .dropCaptures s = .next (({ s with
      captures := { s.captures with records := s.captures.records.filter fun r => r.pinned } } : State).answered .ok
        (BitVec.ofNat 8 (s.captures.records.filter fun r => !r.pinned).length)))

/-! ### Fault Memory -/

/-- A lock request for an entry with its mask (R141, R143, R149, R150): the lowest-numbered EMPTY slot is reserved and becomes WRITING
with the copy held for the entry; its program item joins the tail, and starts at once on an empty list, or, with the cleanup
mark set, its cleanup erase item becomes a cleanup erase then program item in place; without an EMPTY slot LOCK_NOT_STORED
is posted. The copy is gone in either case. A program that starts at once gives its slot one more than the serial word as its
serial (R141, R150); a word that fails its check counts as 0, the model's choice for a case no run reaches (log 17). -/
def Obligations.LockRequestTaken : Prop :=
  ∀ (s : State) (n : Fin 32) (mask : Byte) (body : LockBody), s.fault.copies = [{ entry := n, body := body }] →
    ((∀ k : Fin 4, s.fault.slots[k].nonEmpty = true) →
      s.lockRequest n mask = ({ s with fault := { s.fault with copies := [] } } : State).post .lockNotStored
        (some n.val) 0 3) ∧
    ∀ k : Fin 4, (∀ j : Fin 4, j < k → s.fault.slots[j].nonEmpty = true) →
      let reserved (x : Option Half) : Vector SlotView 4 := s.fault.slots.set k (.writing n mask x body)
      (s.fault.slots[k] = .empty false → s.fault.work = [] → s.lockRequest n mask = { s with
        fault :=
          { s.fault with
            copies := [], work := [{ kind := .program, slot := k }], phase := some .serial
            slots := reserved (some (match s.fault.serialWord with | .value x => x + 1 | .failing => 1)) } }) ∧
      (s.fault.slots[k] = .empty false → s.fault.work ≠ [] → s.lockRequest n mask = { s with
        fault :=
          { s.fault with
            copies := [], work := s.fault.work ++ [{ kind := .program, slot := k }], slots := reserved none } }) ∧
      (s.fault.slots[k] = .empty true → s.lockRequest n mask = { s with
        fault :=
          { s.fault with
            copies := []
            work := s.fault.work.map fun i =>
              if i.slot = k ∧ i.kind = .cleanup then { i with kind := .cleanupThenProgram } else i
            slots := reserved none } })

/-- The next work item starts (R140, R141): a program begins its serial phase with one more than the serial word,
modulo 65536, as the slot's serial; an erase of either kind begins its mark phase; on an empty list nothing is in
flight. A program runs through its phases (R141): at the end of the serial phase the serial word holds the slot's
serial, at the end of the header phase the header stands on the medium; at the end of the body phase the body does,
the slot is VALID, its K-holder joins the switches of its mask, LOCK_STORED is posted, and the next item starts. That the
slot carries its serial from the start of that phase is log 17. -/
def Obligations.ProgramPhases : Prop :=
  (∀ (f : FaultMemory) (k : Fin 4) (rest : List WorkItem),
    (f.work = [] → f.startHead = { f with phase := none }) ∧
    (∀ kind, kind ≠ .program → f.work = { kind := kind, slot := k } :: rest → f.startHead = { f with phase := some .mark }) ∧
    (∀ e m y b x, f.work = { kind := .program, slot := k } :: rest → f.slots[k] = .writing e m y b →
      f.serialWord = .value x →
      f.startHead = { f with phase := some .serial, slots := f.slots.set k (.writing e m (some (x + 1)) b) })) ∧
  (∀ (s : State) (item : WorkItem) (rest : List WorkItem) (e : Fin 32) (m : Byte) (x : Half) (b : LockBody),
    s.inReset = false → s.fault.work = item :: rest → item.kind = .program ∨ item.kind = .cleanupThenProgram →
    s.fault.slots[item.slot] = .writing e m (some x) b →
    let d := s.fault.medium[item.slot]
    let h : LockHeader := { entry := e, mask := m, serial := x }
    (s.fault.phase = some .serial → exec .programPhaseEnd s = .next { s with
      fault := { s.fault with serialWord := .value x, phase := some .header } }) ∧
    (s.fault.phase = some .header → exec .programPhaseEnd s = .next { s with
      fault :=
        { s.fault with medium := s.fault.medium.set item.slot { d with header := .whole h }, phase := some .body } }) ∧
    (s.fault.phase = some .body → exec .programComplete s = .next { ({ s with
      switches := Vector.ofFn fun i =>
        if m.getLsbD i.val then s.switches[i].join (.k item.slot) else s.switches[i] } : State).post .lockStored
          (some item.slot.val) (BitVec.ofNat 16 e.val) 2 with
      fault :=
        ({ s.fault with
          medium := s.fault.medium.set item.slot { d with body := .whole b }
          slots := s.fault.slots.set item.slot (.valid h (some b))
          work := rest } : FaultMemory).startHead }))

/-- An erase, a cleanup erase and the erase part of a cleanup erase then program run through the same phases (R142, R149): the
mark is written, then header and body are made blank, then the mark is. At the completion of an ERASING slot's erase the slot is
EMPTY, its K-holder leaves the stored mask, LOCK_CLEARED is posted, and the next item starts (R142). The engine takes its
message, which brings a LOCKED entry to IDLE with cause SERVICE (R46), before LOCK_CLEARED is posted, after it, or later; the
Capture Store takes its own, which unpins the entry's pinned record (R133), at once or later (R146): which of these comes is
free (log 4), and a message not taken yet joins those on their way. A cleanup erase completes (R142, R149): the mark is blank,
the slot stays EMPTY with its cleanup mark clear, no holder leaves and nothing is posted, and the next item starts; a cleanup
erase then program goes on with the serial phase of its program. -/
def Obligations.ErasePhases : Prop :=
  (∀ (s : State) (item : WorkItem) (rest : List WorkItem), s.inReset = false → s.fault.work = item :: rest →
    item.kind ≠ .program →
    let d := s.fault.medium[item.slot]
    (s.fault.phase = some .mark → exec .erasePhaseEnd s = .next { s with
      fault :=
        { s.fault with medium := s.fault.medium.set item.slot { d with mark := .whole () }, phase := some .clear } }) ∧
    (s.fault.phase = some .clear → exec .erasePhaseEnd s = .next { s with
      fault :=
        { s.fault with
          medium := s.fault.medium.set item.slot { d with header := .blank, body := .blank }
          phase := some .unmark } })) ∧
  (∀ (s : State) (k : Fin 4) (rest : List WorkItem) (h : LockHeader) (b : Option LockBody),
    s.inReset = false → s.fault.work = { kind := .erase, slot := k } :: rest → s.fault.slots[k] = .erasing h b →
    s.fault.phase = some .unmark →
      let n := h.entry
      let emptied : State :=
        { s with
          fault :=
            ({ s.fault with
              medium := s.fault.medium.set k { s.fault.medium[k] with mark := .blank }
              slots := s.fault.slots.set k (.empty false)
              work := rest } : FaultMemory).startHead
          switches := Vector.ofFn fun i => if h.mask.getLsbD i.val then s.switches[i].leave (.k k) else s.switches[i]
          choice := s.choice + 1 }
      let cleared (u : State) : State := u.post .lockCleared (some k.val) (BitVec.ofNat 16 n.val) 2
      let sent (u : State) (m : ClearMessage) : State := { u with fault := { u.fault with sent := u.fault.sent ++ [m] } }
      let told (u : State) : State := if s.entries[n].state = .locked then u.returned n 3 else u
      ∃ base : State, (base = { emptied with captures := s.captures.unpin n } ∨ base = sent emptied (.store n)) ∧
        (exec .eraseComplete s = .next (cleared (told base)) ∨
         exec .eraseComplete s = .next (told (cleared base)) ∨
         exec .eraseComplete s = .next (sent (cleared base) (.engine n)))) ∧
  (∀ (s : State) (k : Fin 4) (rest : List WorkItem), s.inReset = false → s.fault.phase = some .unmark →
    let blanked : Vector SlotMedium 4 := s.fault.medium.set k { s.fault.medium[k] with mark := .blank }
    (s.fault.work = { kind := .cleanup, slot := k } :: rest → s.fault.slots[k] = .empty true →
      exec .cleanupEraseComplete s = .next { s with
        fault :=
          ({ s.fault with medium := blanked, slots := s.fault.slots.set k (.empty false), work := rest }
            : FaultMemory).startHead }) ∧
    (∀ e m y b x, s.fault.work = { kind := .cleanupThenProgram, slot := k } :: rest →
      s.fault.slots[k] = .writing e m y b → s.fault.serialWord = .value x →
      exec .cleanupEraseComplete s = .next { s with
        fault :=
          { s.fault with
            medium := blanked, phase := some .serial
            slots := s.fault.slots.set k (.writing e m (some (x + 1)) b) } }))

/-- CLEAR LOCK goes through its checks in order, with the SERVICE level at the take (R144). A VALID slot becomes ERASING
and its erase joins the tail, starting at once on an empty list; a volatile lock is cleared at once: the entry goes to IDLE
with cause SERVICE and its pinned record is unpinned (R47, R145). At most one slot names an entry (R139, which
StoredLocksSurvive says every step keeps), hence the hypothesis of the slots' clauses. The SERVICE level is the operand of the row (log 18). -/
def Obligations.ClearLockResults : Prop :=
  ∀ (s : State) (service : Bool), s.commandTaken →
    (s.ready = false → exec (.clearLock service) s = .next (s.answered .notReady 0)) ∧
    (s.ready = true → 31 < s.port.arg0.toNat → exec (.clearLock service) s = .next (s.answered .badArgument 0)) ∧
    ∀ n : Fin 32, s.ready = true → s.port.arg0.toNat = n.val →
      (service = false → exec (.clearLock service) s = .next (s.answered .notService 0)) ∧
      (service = true →
        (∀ k : Fin 4, s.fault.slots[k].names = some n → (∀ j : Fin 4, s.fault.slots[j].names = some n → j = k) →
          ((s.fault.slots[k].code = 1 ∨ s.fault.slots[k].code = 3) →
            exec (.clearLock service) s = .next (s.answered .lockBusy (BitVec.ofNat 8 k.val))) ∧
          (∀ h b, s.fault.slots[k] = .valid h b → exec (.clearLock service) s = .next (({ s with
            fault :=
              { s.fault with
                slots := s.fault.slots.set k (.erasing h b)
                work := s.fault.work ++ [{ kind := .erase, slot := k }]
                phase := if s.fault.work = [] then some .mark else s.fault.phase } } : State).answered .accepted
                  (BitVec.ofNat 8 k.val)))) ∧
        ((∀ j : Fin 4, s.fault.slots[j].names ≠ some n) →
          (s.entries[n].state = .locked → exec (.clearLock service) s =
            .next ((({ s with captures := s.captures.unpin n } : State).returned n 3).answered .ok 0)) ∧
          (s.entries[n].state ≠ .locked → exec (.clearLock service) s = .next (s.answered .noLock 0))))

/-! ### Event Queue -/

/-- The queue takes an arrival (R156 to R159): with room it joins the tail with the next sequence number and the loss mark;
when full, the newest record of the lowest class held gives way to an arrival of higher class, and any other arrival is
dropped; either loss counts up to 255 and sets the mark, which an arrival that is accepted, one that displaces among them, takes
with it (log 25 for the sentence of R162 that says otherwise). -/
def Obligations.ArrivalsTaken : Prop :=
  ∀ (q : EventQueue) (r : EventRecord),
    let accepted (l : List EventRecord) (count : Byte) (mark : Bool) (t : EventQueue) : Prop :=
      t.records = l ++ [{ r with seq := q.nextSeq, lossBefore := mark }] ∧ t.nextSeq = q.nextSeq + 1 ∧
        t.lossCount = count ∧ t.lossMark = false ∧ t.alertLevel = q.alertLevel
    let more : Byte := if q.lossCount = 255 then 255 else q.lossCount + 1
    (q.records.length < 32 → accepted q.records q.lossCount q.lossMark (q.arrive r)) ∧
    (q.records.length = 32 → (∀ x ∈ q.records, r.cls ≤ x.cls) →
      q.arrive r = { q with lossCount := more, lossMark := true }) ∧
    (∀ before x after, q.records.length = 32 → q.records = before ++ x :: after → x.cls < r.cls →
      (∀ y ∈ q.records, x.cls ≤ y.cls) → (∀ y ∈ after, x.cls < y.cls) →
      accepted (before ++ after) more true (q.arrive r))

/-- POP EVENT is taken in every state of the part: on an empty queue it is refused with QUEUE_EMPTY; otherwise it
removes the head with OK and the low 8 bits of its sequence number as detail, brings ALERT_N up to date, and changes
neither the loss count, the loss mark nor the next sequence number (R160). CLEAR LOSS is taken in every state of the
part, is accepted with OK and the loss count as detail, and sets the loss count to 0; nothing else changes (R161). -/
def Obligations.PopEventAndClearLoss : Prop :=
  (∀ s : State, s.commandTaken →
    (s.queue.records = [] → exec .popEvent s = .next (s.answered .queueEmpty 0)) ∧
    ∀ r rest, s.queue.records = r :: rest → ∃ alert : Bool,
      (alert = true ↔ ∃ x ∈ rest, s.queue.alertLevel.val ≤ x.cls.val) ∧
      exec .popEvent s = .next (({ s with queue := { s.queue with records := rest, alert := alert } } : State).answered
        .ok (BitVec.ofNat 8 r.seq.toNat))) ∧
  (∀ s : State, s.commandTaken →
    exec .clearLoss s =
      .next (({ s with queue := { s.queue with lossCount := 0 } } : State).answered .ok s.queue.lossCount))

/-- A value from 0 to 4 written to ALERT_LEVEL becomes the alert level, and ALERT_N is brought up to date: asserted exactly
while a record of class at or above the level is held; a value above 4 is ignored (R163, R164). -/
def Obligations.AlertLevelWrites : Prop :=
  ∀ (s : State) (v : Byte), s.byteTakenAt 0x0D →
    (4 < v.toNat → exec (.alertLevelWrite v) s = .next s.acknowledged) ∧
    ∀ level : Fin 5, v.toNat = level.val → ∃ alert : Bool,
      (alert = true ↔ ∃ r ∈ s.queue.records, level.val ≤ r.cls.val) ∧
      exec (.alertLevelWrite v) s =
        .next ({ s with queue := { s.queue with alertLevel := level, alert := alert } } : State).acknowledged

/-! ### SOFT RESET and the time base -/

/-- SOFT RESET goes through its checks in order (R185), and accepted acts at each block as R186 gives: entries OFF with
their defaults and their E-holders gone, the Scan Unit stopped with the one-step list, every record invalid and every
indicator false, captures and queue empty; what the table leaves as it stands stands. A message of an erase completion still on
its way finds its entry OFF and the store empty, and is gone (R46, R133; log 4). The hypotheses are those of STANDBY:
every switch in OFF, and E-holders exactly those of active entries. -/
def Obligations.SoftResetResults : Prop :=
  ∀ s : State, s.commandTaken →
    (s.ready = false → exec .softReset s = .next (s.answered .notReady 0)) ∧
    (s.ready = true → s.seq.state.code = 2 ∨ s.seq.state.code = 3 ∨ s.seq.state.code = 4 →
      exec .softReset s = .next (s.answered .seqBusy 0)) ∧
    (s.ready = true → s.seq.state = .standby → (∀ i : Fin 8, s.switches[i].state = .off) → s.eHoldersExact →
      exec .softReset s = .next (({ s with
        entries := Vector.replicate 32 Entry.default
        switches := s.switches.map fun w => { w with holds := w.holds &&& (0x1F#5 ++ 0#32), discharged := false }
        scan :=
          { s.scan with
            mode := .stopped, scanning := false, stepIndex := 0, sampled := none, pendingTrigger := false
            frameTimer := none, pendingList := none, pendingChannel := none
            list := [{ a := none, b := none, c := some 17, settle := 0 }] }
        records := s.records.map fun m => { m with valid := false, count := 0, clipped := false }
        captures := { records := [], nextId := 0 }
        fault := { s.fault with sent := [] }
        queue := { records := [], nextSeq := 0, lossCount := 0, lossMark := false, alertLevel := 0, alert := false }
          } : State).answered .ok 0))

/-- A millisecond of the time base: the time-stamp counter rises by one and wraps (R127), every running timer has one
millisecond less to go, and nothing else changes, but that the messages of an erase completion and of a failed switch still on
their way are taken first (none, as a rule: then `u` is `s`; logs 4 and 26); how the model counts timers is logs 7 and 8. -/
def Obligations.TimeBaseTicks : Prop :=
  ∀ s : State, s.inReset = false → ∃ t, exec .timeBaseTick s = .next t ∧
    let u := s.receiveAll.takeFailures
    (s.fault.sent = [] → s.seq.failed = [] → u = s) ∧
    t.timestamp = s.timestamp + 1 ∧
    (∀ n : Fin 32, ∃ x y, t.entries[n] = { u.entries[n] with dwellTimer := x, recoveryTimer := y } ∧
      (u.entries[n].dwellTimer = none → x = none) ∧ (u.entries[n].recoveryTimer = none → y = none) ∧
      (∀ left, u.entries[n].dwellTimer = some left → x = some (if left = 0 then 0 else left - 1)) ∧
      (∀ left, u.entries[n].recoveryTimer = some left → y = some (if left = 0 then 0 else left - 1))) ∧
    (∀ i : Fin 8, ∃ x, t.switches[i] = { u.switches[i] with rampTimer := x } ∧
      (u.switches[i].rampTimer = none → x = none) ∧
      ∀ left, u.switches[i].rampTimer = some left → x = some (if left = 0 then 0 else left - 1)) ∧
    (∃ x y z, t.seq = { u.seq with stepLimit := x, discharge := y, settle := z } ∧
      (u.seq.stepLimit = none → x = none) ∧ (u.seq.discharge = none → y = none) ∧ (u.seq.settle = none → z = none) ∧
      (∀ left, u.seq.stepLimit = some left → x = some (if left = 0 then 0 else left - 1)) ∧
      (∀ left, u.seq.discharge = some left → y = some (if left = 0 then 0 else left - 1)) ∧
      (∀ left, u.seq.settle = some left → z = some (if left = 0 then 0 else left - 1))) ∧
    t = { u with
      timestamp := t.timestamp
      entries := t.entries
      switches := t.switches
      seq := t.seq
      scan := { s.scan with frameTimer := s.scan.frameTimer.map fun left => left - 10 } }

/-! ### Messages between the blocks -/

/-- What the blocks tell each other in the statements above. A block that posts an event hands the queue a record with its
kind, source, detail and class, stamped with the time-stamp counter (R154, R155). The store unpins the oldest record that
names the entry and is pinned, or nothing where there is none (R133). A channel load and a list applied come into force;
the records of the loaded channel, or of every channel the list does not contain, are invalidated, and the switches that
watch them have their indicators false (R64, R97, R100, R117). A qualification without a dwell does what the expiry of a
dwell with that record does (R26, R28 to R35). The messages of an erase completion that are on their way are taken oldest
first (log 4): the engine's brings a LOCKED entry to IDLE with cause SERVICE and moves no other, so that it has no effect after
an immediate clear (R46, R146); the store's unpins the entry's oldest pinned record, so that of two it is the older (R133). -/
def Obligations.MessagesBetweenBlocks : Prop :=
  (∀ (s : State) (kind : EventKind) (source : Option Nat) (detail : Half) (cls : Fin 4) (q : Half) (mark : Bool),
    ∃ r : EventRecord, s.post kind source detail cls = { s with queue := s.queue.arrive r } ∧
      { r with seq := q, lossBefore := mark } =
        { seq := q, timestamp := s.timestamp, kind := kind, source := source, detail := detail, cls := cls,
          lossBefore := mark }) ∧
  (∀ (c : CaptureStore) (n : Fin 32),
    ((∀ r ∈ c.records, ¬(r.entry = n ∧ r.pinned = true)) → c.unpin n = c) ∧
    ∀ newer r older, c.records = newer ++ r :: older → r.entry = n → r.pinned = true →
      (∀ x ∈ older, ¬(x.entry = n ∧ x.pinned = true)) →
      c.unpin n = { c with records := newer ++ { r with pinned := false } :: older }) ∧
  (∀ (s : State) (gone : Fin 18 → Bool),
    let cleared (u : ScanUnit) : State :=
      { s with
        scan := u
        records := Vector.ofFn fun r =>
          if ∃ ch : Fin 18, channelSource ch = r ∧ gone ch = true then
            { s.records[r] with valid := false, count := 0, clipped := false }
          else s.records[r]
        switches := Vector.ofFn fun i =>
          if ∃ ch : Fin 18, s.switches[i].config.goodChannel.toNat = ch.val ∧ gone ch = true then
            { s.switches[i] with discharged := false }
          else s.switches[i] }
    (∀ ch c, (∀ x, gone x = true ↔ x = ch) →
      s.applyChannel ch c = cleared { s.scan with channels := s.scan.channels.set ch c, pendingChannel := none }) ∧
    (∀ l, (∀ x, gone x = true ↔ x ∉ listChannels l) →
      s.applyList l = cleared { s.scan with list := l, stepIndex := 0, pendingList := none })) ∧
  (∀ (s : State) (n : Fin 32) (d : DwellRecord), s.inReset = false → s.entries[n].state = .idle → s.fault.sent = [] →
    exec (.dwellExpiry n) { s with
      entries := s.entries.set n
        { s.entries[n] with state := .pending, dwellTimer := some 0, dwellRecord := some d } } = .next (s.qualify n d)) ∧
  (∀ s : State, (s.fault.sent = [] → s.receiveAll = s ∧ s.receiveEngine = s) ∧
    ∀ (m : ClearMessage) (rest : List ClearMessage), s.fault.sent = m :: rest →
      let taken : State := { s with fault := { s.fault with sent := rest } }
      (∀ n, m = .engine n →
        let told := if s.entries[n].state = .locked then taken.returned n 3 else taken
        s.receiveAll = told.receiveAll ∧ s.receiveEngine = told.receiveEngine) ∧
      (∀ n, m = .store n →
        s.receiveAll = ({ taken with captures := s.captures.unpin n } : State).receiveAll ∧
        s.receiveEngine = { taken.receiveEngine with
          fault := { taken.receiveEngine.fault with sent := m :: taken.receiveEngine.fault.sent } }))

/-! ### Invariants that every step keeps -/

/-- From every state whose switches are legal (R55, R56, R59), every step leaves them legal; so a gate is energised only
while its switch is demanded ON and its hold set is empty. -/
def Obligations.SwitchesStayLegal : Prop :=
  ∀ s t : State, s.switchesLegal → step s = .next t → t.switchesLegal ∧ t.gatesSafe

/-- From every state whose entries are legal (R21, R22, R24), every step leaves them legal. -/
def Obligations.EntriesStayLegal : Prop :=
  ∀ s t : State, s.entriesLegal → step s = .next t → t.entriesLegal

/-- Every step keeps the E-holders exact (R66): an entry holds a switch exactly while it is active and its mask names
the switch. Every step keeps the X marks exact (R68): the trip line holds a switch exactly while TRIP_N is seen
asserted and the switch's trip response is yes. -/
def Obligations.HoldersStayExact : Prop :=
  (∀ s t : State, s.eHoldersExact → step s = .next t → t.eHoldersExact) ∧
  (∀ s t : State, s.xHolderExact → step s = .next t → t.xHolderExact)

/-- Every step keeps the K-holders exact (R67): a slot holds a switch exactly while it is VALID or ERASING and its stored mask
names the switch. With it goes what stands still in a part that is not ready (R182 to R184); that a slot the restore has not
settled is EMPTY without cleanup mark, which is part of that, is the model's choice (log 24). -/
def Obligations.KHoldersStayExact : Prop :=
  ∀ s t : State, s.startingClean → s.kHoldersExact → step s = .next t → t.startingClean ∧ t.kHoldersExact

/-- A stored lock is not lost (R139, R147): every step keeps the controller's view in agreement with the medium, and, with
what keeps it so, that no two non-EMPTY slots name the same entry (R14, R139, R143); and from such a state a power-on or pin reset, whatever is in flight, leaves on the medium of a VALID slot what the restore makes
VALID again with the same header and body, and so for an ERASING slot whose erase has not started; one in its mark phase stands
as before or, once the mark is written in part, is discarded; and a WRITING slot in its body phase, whose header is complete, is
restored VALID with the body absent (R141, R147, R148). -/
def Obligations.StoredLocksSurvive : Prop :=
  (∀ s t : State, s.startingClean → s.locksAgree → step s = .next t → t.locksAgree) ∧
  (∀ s t : State, s.startingClean → s.locksAgree → s.slotsNameApart → step s = .next t → t.slotsNameApart) ∧
  ∀ (s t : State) (c : Instr) (k : Fin 4), s.startingClean → s.locksAgree → c = .powerOnReset ∨ c = .pinReset →
    exec c s = .next t →
    let found := t.fault.medium[k].restored
    (∀ h b, s.fault.slots[k] = .valid h b → found = .valid h b) ∧
    (∀ h b, s.fault.slots[k] = .erasing h b →
      (s.fault.phaseOf k = none → found = .valid h b) ∧
      (s.fault.phaseOf k = some .mark → found = .valid h b ∨ found = .empty true)) ∧
    (∀ e m y b, s.fault.slots[k] = .writing e m (some y) b → s.fault.phaseOf k = some .body →
      found = .valid { entry := e, mask := m, serial := y } none)

/-- Every step keeps the queue within 32 records with ALERT_N exact (R153, R163), and the Capture Store within eight
records, four of them pinned, with no id twice (R127, R130). -/
def Obligations.QueueAndCapturesStaySound : Prop :=
  ∀ s t : State, step s = .next t →
    (s.queue.sound → t.queue.sound) ∧ (s.captures.sound → t.captures.sound)

/-- Every step keeps the lists in force sound (R74) and the demands within what the sequencer state allows (R76). -/
def Obligations.DemandsFollowTheSequence : Prop :=
  ∀ s t : State, step s = .next t →
    (s.listsSound → t.listsSound) ∧
    (s.startingClean → s.demandsFollow → t.demandsFollow)

/-- Every step keeps the Scan Unit's flags, period and pending loads sound (R102, R104, R108), and the records ordered, with those
of absent channels invalid (R116, R117). -/
def Obligations.ScanAndRecordsStaySound : Prop :=
  ∀ s t : State, step s = .next t →
    (s.scanSound → t.scanSound) ∧ (s.recordsSound → t.recordsSound)

end
end

