-- ==== Sys2Proof/Laws/State.lean ====
section
/-! SUPPORT. One lemma for each field of each update of `State`, true by `rfl`, so that no proof unfolds a record
update. -/

namespace Sys2Proof.Machine

/-! ### modEntry -/

@[simp] theorem State.modEntry_inReset (s : State) (n : Fin 32) (f : Entry → Entry) :
    (s.modEntry n f).inReset = s.inReset := rfl
@[simp] theorem State.modEntry_ready (s : State) (n : Fin 32) (f : Entry → Entry) :
    (s.modEntry n f).ready = s.ready := rfl
@[simp] theorem State.modEntry_timestamp (s : State) (n : Fin 32) (f : Entry → Entry) :
    (s.modEntry n f).timestamp = s.timestamp := rfl
@[simp] theorem State.modEntry_entries (s : State) (n : Fin 32) (f : Entry → Entry) :
    (s.modEntry n f).entries = s.entries.set n (f s.entries[n]) := rfl
@[simp] theorem State.modEntry_entryStaging (s : State) (n : Fin 32) (f : Entry → Entry) :
    (s.modEntry n f).entryStaging = s.entryStaging := rfl
@[simp] theorem State.modEntry_switches (s : State) (n : Fin 32) (f : Entry → Entry) :
    (s.modEntry n f).switches = s.switches := rfl
@[simp] theorem State.modEntry_switchStaging (s : State) (n : Fin 32) (f : Entry → Entry) :
    (s.modEntry n f).switchStaging = s.switchStaging := rfl
@[simp] theorem State.modEntry_trip (s : State) (n : Fin 32) (f : Entry → Entry) :
    (s.modEntry n f).trip = s.trip := rfl
@[simp] theorem State.modEntry_seq (s : State) (n : Fin 32) (f : Entry → Entry) :
    (s.modEntry n f).seq = s.seq := rfl
@[simp] theorem State.modEntry_scan (s : State) (n : Fin 32) (f : Entry → Entry) :
    (s.modEntry n f).scan = s.scan := rfl
@[simp] theorem State.modEntry_records (s : State) (n : Fin 32) (f : Entry → Entry) :
    (s.modEntry n f).records = s.records := rfl
@[simp] theorem State.modEntry_derivedWritten (s : State) (n : Fin 32) (f : Entry → Entry) :
    (s.modEntry n f).derivedWritten = s.derivedWritten := rfl
@[simp] theorem State.modEntry_derivedInForce (s : State) (n : Fin 32) (f : Entry → Entry) :
    (s.modEntry n f).derivedInForce = s.derivedInForce := rfl
@[simp] theorem State.modEntry_captures (s : State) (n : Fin 32) (f : Entry → Entry) :
    (s.modEntry n f).captures = s.captures := rfl
@[simp] theorem State.modEntry_fault (s : State) (n : Fin 32) (f : Entry → Entry) :
    (s.modEntry n f).fault = s.fault := rfl
@[simp] theorem State.modEntry_queue (s : State) (n : Fin 32) (f : Entry → Entry) :
    (s.modEntry n f).queue = s.queue := rfl
@[simp] theorem State.modEntry_port (s : State) (n : Fin 32) (f : Entry → Entry) :
    (s.modEntry n f).port = s.port := rfl
@[simp] theorem State.modEntry_choice (s : State) (n : Fin 32) (f : Entry → Entry) :
    (s.modEntry n f).choice = s.choice := rfl
@[simp] theorem State.modEntry_pending (s : State) (n : Fin 32) (f : Entry → Entry) :
    (s.modEntry n f).pending = s.pending := rfl

/-! ### modSwitch -/

@[simp] theorem State.modSwitch_inReset (s : State) (i : Fin 8) (f : Switch → Switch) :
    (s.modSwitch i f).inReset = s.inReset := rfl
@[simp] theorem State.modSwitch_ready (s : State) (i : Fin 8) (f : Switch → Switch) :
    (s.modSwitch i f).ready = s.ready := rfl
@[simp] theorem State.modSwitch_timestamp (s : State) (i : Fin 8) (f : Switch → Switch) :
    (s.modSwitch i f).timestamp = s.timestamp := rfl
@[simp] theorem State.modSwitch_entries (s : State) (i : Fin 8) (f : Switch → Switch) :
    (s.modSwitch i f).entries = s.entries := rfl
@[simp] theorem State.modSwitch_entryStaging (s : State) (i : Fin 8) (f : Switch → Switch) :
    (s.modSwitch i f).entryStaging = s.entryStaging := rfl
@[simp] theorem State.modSwitch_switches (s : State) (i : Fin 8) (f : Switch → Switch) :
    (s.modSwitch i f).switches = s.switches.set i (f s.switches[i]) := rfl
@[simp] theorem State.modSwitch_switchStaging (s : State) (i : Fin 8) (f : Switch → Switch) :
    (s.modSwitch i f).switchStaging = s.switchStaging := rfl
@[simp] theorem State.modSwitch_trip (s : State) (i : Fin 8) (f : Switch → Switch) :
    (s.modSwitch i f).trip = s.trip := rfl
@[simp] theorem State.modSwitch_seq (s : State) (i : Fin 8) (f : Switch → Switch) :
    (s.modSwitch i f).seq = s.seq := rfl
@[simp] theorem State.modSwitch_scan (s : State) (i : Fin 8) (f : Switch → Switch) :
    (s.modSwitch i f).scan = s.scan := rfl
@[simp] theorem State.modSwitch_records (s : State) (i : Fin 8) (f : Switch → Switch) :
    (s.modSwitch i f).records = s.records := rfl
@[simp] theorem State.modSwitch_derivedWritten (s : State) (i : Fin 8) (f : Switch → Switch) :
    (s.modSwitch i f).derivedWritten = s.derivedWritten := rfl
@[simp] theorem State.modSwitch_derivedInForce (s : State) (i : Fin 8) (f : Switch → Switch) :
    (s.modSwitch i f).derivedInForce = s.derivedInForce := rfl
@[simp] theorem State.modSwitch_captures (s : State) (i : Fin 8) (f : Switch → Switch) :
    (s.modSwitch i f).captures = s.captures := rfl
@[simp] theorem State.modSwitch_fault (s : State) (i : Fin 8) (f : Switch → Switch) :
    (s.modSwitch i f).fault = s.fault := rfl
@[simp] theorem State.modSwitch_queue (s : State) (i : Fin 8) (f : Switch → Switch) :
    (s.modSwitch i f).queue = s.queue := rfl
@[simp] theorem State.modSwitch_port (s : State) (i : Fin 8) (f : Switch → Switch) :
    (s.modSwitch i f).port = s.port := rfl
@[simp] theorem State.modSwitch_choice (s : State) (i : Fin 8) (f : Switch → Switch) :
    (s.modSwitch i f).choice = s.choice := rfl
@[simp] theorem State.modSwitch_pending (s : State) (i : Fin 8) (f : Switch → Switch) :
    (s.modSwitch i f).pending = s.pending := rfl

/-! ### modRecord -/

@[simp] theorem State.modRecord_inReset (s : State) (r : Fin 22) (f : MeasRecord → MeasRecord) :
    (s.modRecord r f).inReset = s.inReset := rfl
@[simp] theorem State.modRecord_ready (s : State) (r : Fin 22) (f : MeasRecord → MeasRecord) :
    (s.modRecord r f).ready = s.ready := rfl
@[simp] theorem State.modRecord_timestamp (s : State) (r : Fin 22) (f : MeasRecord → MeasRecord) :
    (s.modRecord r f).timestamp = s.timestamp := rfl
@[simp] theorem State.modRecord_entries (s : State) (r : Fin 22) (f : MeasRecord → MeasRecord) :
    (s.modRecord r f).entries = s.entries := rfl
@[simp] theorem State.modRecord_entryStaging (s : State) (r : Fin 22) (f : MeasRecord → MeasRecord) :
    (s.modRecord r f).entryStaging = s.entryStaging := rfl
@[simp] theorem State.modRecord_switches (s : State) (r : Fin 22) (f : MeasRecord → MeasRecord) :
    (s.modRecord r f).switches = s.switches := rfl
@[simp] theorem State.modRecord_switchStaging (s : State) (r : Fin 22) (f : MeasRecord → MeasRecord) :
    (s.modRecord r f).switchStaging = s.switchStaging := rfl
@[simp] theorem State.modRecord_trip (s : State) (r : Fin 22) (f : MeasRecord → MeasRecord) :
    (s.modRecord r f).trip = s.trip := rfl
@[simp] theorem State.modRecord_seq (s : State) (r : Fin 22) (f : MeasRecord → MeasRecord) :
    (s.modRecord r f).seq = s.seq := rfl
@[simp] theorem State.modRecord_scan (s : State) (r : Fin 22) (f : MeasRecord → MeasRecord) :
    (s.modRecord r f).scan = s.scan := rfl
@[simp] theorem State.modRecord_records (s : State) (r : Fin 22) (f : MeasRecord → MeasRecord) :
    (s.modRecord r f).records = s.records.set r (f s.records[r]) := rfl
@[simp] theorem State.modRecord_derivedWritten (s : State) (r : Fin 22) (f : MeasRecord → MeasRecord) :
    (s.modRecord r f).derivedWritten = s.derivedWritten := rfl
@[simp] theorem State.modRecord_derivedInForce (s : State) (r : Fin 22) (f : MeasRecord → MeasRecord) :
    (s.modRecord r f).derivedInForce = s.derivedInForce := rfl
@[simp] theorem State.modRecord_captures (s : State) (r : Fin 22) (f : MeasRecord → MeasRecord) :
    (s.modRecord r f).captures = s.captures := rfl
@[simp] theorem State.modRecord_fault (s : State) (r : Fin 22) (f : MeasRecord → MeasRecord) :
    (s.modRecord r f).fault = s.fault := rfl
@[simp] theorem State.modRecord_queue (s : State) (r : Fin 22) (f : MeasRecord → MeasRecord) :
    (s.modRecord r f).queue = s.queue := rfl
@[simp] theorem State.modRecord_port (s : State) (r : Fin 22) (f : MeasRecord → MeasRecord) :
    (s.modRecord r f).port = s.port := rfl
@[simp] theorem State.modRecord_choice (s : State) (r : Fin 22) (f : MeasRecord → MeasRecord) :
    (s.modRecord r f).choice = s.choice := rfl
@[simp] theorem State.modRecord_pending (s : State) (r : Fin 22) (f : MeasRecord → MeasRecord) :
    (s.modRecord r f).pending = s.pending := rfl

/-! ### modSeq -/

@[simp] theorem State.modSeq_inReset (s : State) (f : Sequencer → Sequencer) :
    (s.modSeq f).inReset = s.inReset := rfl
@[simp] theorem State.modSeq_ready (s : State) (f : Sequencer → Sequencer) :
    (s.modSeq f).ready = s.ready := rfl
@[simp] theorem State.modSeq_timestamp (s : State) (f : Sequencer → Sequencer) :
    (s.modSeq f).timestamp = s.timestamp := rfl
@[simp] theorem State.modSeq_entries (s : State) (f : Sequencer → Sequencer) :
    (s.modSeq f).entries = s.entries := rfl
@[simp] theorem State.modSeq_entryStaging (s : State) (f : Sequencer → Sequencer) :
    (s.modSeq f).entryStaging = s.entryStaging := rfl
@[simp] theorem State.modSeq_switches (s : State) (f : Sequencer → Sequencer) :
    (s.modSeq f).switches = s.switches := rfl
@[simp] theorem State.modSeq_switchStaging (s : State) (f : Sequencer → Sequencer) :
    (s.modSeq f).switchStaging = s.switchStaging := rfl
@[simp] theorem State.modSeq_trip (s : State) (f : Sequencer → Sequencer) :
    (s.modSeq f).trip = s.trip := rfl
@[simp] theorem State.modSeq_seq (s : State) (f : Sequencer → Sequencer) :
    (s.modSeq f).seq = f s.seq := rfl
@[simp] theorem State.modSeq_scan (s : State) (f : Sequencer → Sequencer) :
    (s.modSeq f).scan = s.scan := rfl
@[simp] theorem State.modSeq_records (s : State) (f : Sequencer → Sequencer) :
    (s.modSeq f).records = s.records := rfl
@[simp] theorem State.modSeq_derivedWritten (s : State) (f : Sequencer → Sequencer) :
    (s.modSeq f).derivedWritten = s.derivedWritten := rfl
@[simp] theorem State.modSeq_derivedInForce (s : State) (f : Sequencer → Sequencer) :
    (s.modSeq f).derivedInForce = s.derivedInForce := rfl
@[simp] theorem State.modSeq_captures (s : State) (f : Sequencer → Sequencer) :
    (s.modSeq f).captures = s.captures := rfl
@[simp] theorem State.modSeq_fault (s : State) (f : Sequencer → Sequencer) :
    (s.modSeq f).fault = s.fault := rfl
@[simp] theorem State.modSeq_queue (s : State) (f : Sequencer → Sequencer) :
    (s.modSeq f).queue = s.queue := rfl
@[simp] theorem State.modSeq_port (s : State) (f : Sequencer → Sequencer) :
    (s.modSeq f).port = s.port := rfl
@[simp] theorem State.modSeq_choice (s : State) (f : Sequencer → Sequencer) :
    (s.modSeq f).choice = s.choice := rfl
@[simp] theorem State.modSeq_pending (s : State) (f : Sequencer → Sequencer) :
    (s.modSeq f).pending = s.pending := rfl

/-! ### modScan -/

@[simp] theorem State.modScan_inReset (s : State) (f : ScanUnit → ScanUnit) :
    (s.modScan f).inReset = s.inReset := rfl
@[simp] theorem State.modScan_ready (s : State) (f : ScanUnit → ScanUnit) :
    (s.modScan f).ready = s.ready := rfl
@[simp] theorem State.modScan_timestamp (s : State) (f : ScanUnit → ScanUnit) :
    (s.modScan f).timestamp = s.timestamp := rfl
@[simp] theorem State.modScan_entries (s : State) (f : ScanUnit → ScanUnit) :
    (s.modScan f).entries = s.entries := rfl
@[simp] theorem State.modScan_entryStaging (s : State) (f : ScanUnit → ScanUnit) :
    (s.modScan f).entryStaging = s.entryStaging := rfl
@[simp] theorem State.modScan_switches (s : State) (f : ScanUnit → ScanUnit) :
    (s.modScan f).switches = s.switches := rfl
@[simp] theorem State.modScan_switchStaging (s : State) (f : ScanUnit → ScanUnit) :
    (s.modScan f).switchStaging = s.switchStaging := rfl
@[simp] theorem State.modScan_trip (s : State) (f : ScanUnit → ScanUnit) :
    (s.modScan f).trip = s.trip := rfl
@[simp] theorem State.modScan_seq (s : State) (f : ScanUnit → ScanUnit) :
    (s.modScan f).seq = s.seq := rfl
@[simp] theorem State.modScan_scan (s : State) (f : ScanUnit → ScanUnit) :
    (s.modScan f).scan = f s.scan := rfl
@[simp] theorem State.modScan_records (s : State) (f : ScanUnit → ScanUnit) :
    (s.modScan f).records = s.records := rfl
@[simp] theorem State.modScan_derivedWritten (s : State) (f : ScanUnit → ScanUnit) :
    (s.modScan f).derivedWritten = s.derivedWritten := rfl
@[simp] theorem State.modScan_derivedInForce (s : State) (f : ScanUnit → ScanUnit) :
    (s.modScan f).derivedInForce = s.derivedInForce := rfl
@[simp] theorem State.modScan_captures (s : State) (f : ScanUnit → ScanUnit) :
    (s.modScan f).captures = s.captures := rfl
@[simp] theorem State.modScan_fault (s : State) (f : ScanUnit → ScanUnit) :
    (s.modScan f).fault = s.fault := rfl
@[simp] theorem State.modScan_queue (s : State) (f : ScanUnit → ScanUnit) :
    (s.modScan f).queue = s.queue := rfl
@[simp] theorem State.modScan_port (s : State) (f : ScanUnit → ScanUnit) :
    (s.modScan f).port = s.port := rfl
@[simp] theorem State.modScan_choice (s : State) (f : ScanUnit → ScanUnit) :
    (s.modScan f).choice = s.choice := rfl
@[simp] theorem State.modScan_pending (s : State) (f : ScanUnit → ScanUnit) :
    (s.modScan f).pending = s.pending := rfl

/-! ### modFault -/

@[simp] theorem State.modFault_inReset (s : State) (f : FaultMemory → FaultMemory) :
    (s.modFault f).inReset = s.inReset := rfl
@[simp] theorem State.modFault_ready (s : State) (f : FaultMemory → FaultMemory) :
    (s.modFault f).ready = s.ready := rfl
@[simp] theorem State.modFault_timestamp (s : State) (f : FaultMemory → FaultMemory) :
    (s.modFault f).timestamp = s.timestamp := rfl
@[simp] theorem State.modFault_entries (s : State) (f : FaultMemory → FaultMemory) :
    (s.modFault f).entries = s.entries := rfl
@[simp] theorem State.modFault_entryStaging (s : State) (f : FaultMemory → FaultMemory) :
    (s.modFault f).entryStaging = s.entryStaging := rfl
@[simp] theorem State.modFault_switches (s : State) (f : FaultMemory → FaultMemory) :
    (s.modFault f).switches = s.switches := rfl
@[simp] theorem State.modFault_switchStaging (s : State) (f : FaultMemory → FaultMemory) :
    (s.modFault f).switchStaging = s.switchStaging := rfl
@[simp] theorem State.modFault_trip (s : State) (f : FaultMemory → FaultMemory) :
    (s.modFault f).trip = s.trip := rfl
@[simp] theorem State.modFault_seq (s : State) (f : FaultMemory → FaultMemory) :
    (s.modFault f).seq = s.seq := rfl
@[simp] theorem State.modFault_scan (s : State) (f : FaultMemory → FaultMemory) :
    (s.modFault f).scan = s.scan := rfl
@[simp] theorem State.modFault_records (s : State) (f : FaultMemory → FaultMemory) :
    (s.modFault f).records = s.records := rfl
@[simp] theorem State.modFault_derivedWritten (s : State) (f : FaultMemory → FaultMemory) :
    (s.modFault f).derivedWritten = s.derivedWritten := rfl
@[simp] theorem State.modFault_derivedInForce (s : State) (f : FaultMemory → FaultMemory) :
    (s.modFault f).derivedInForce = s.derivedInForce := rfl
@[simp] theorem State.modFault_captures (s : State) (f : FaultMemory → FaultMemory) :
    (s.modFault f).captures = s.captures := rfl
@[simp] theorem State.modFault_fault (s : State) (f : FaultMemory → FaultMemory) :
    (s.modFault f).fault = f s.fault := rfl
@[simp] theorem State.modFault_queue (s : State) (f : FaultMemory → FaultMemory) :
    (s.modFault f).queue = s.queue := rfl
@[simp] theorem State.modFault_port (s : State) (f : FaultMemory → FaultMemory) :
    (s.modFault f).port = s.port := rfl
@[simp] theorem State.modFault_choice (s : State) (f : FaultMemory → FaultMemory) :
    (s.modFault f).choice = s.choice := rfl
@[simp] theorem State.modFault_pending (s : State) (f : FaultMemory → FaultMemory) :
    (s.modFault f).pending = s.pending := rfl

/-! ### modPort -/

@[simp] theorem State.modPort_inReset (s : State) (f : Port → Port) :
    (s.modPort f).inReset = s.inReset := rfl
@[simp] theorem State.modPort_ready (s : State) (f : Port → Port) :
    (s.modPort f).ready = s.ready := rfl
@[simp] theorem State.modPort_timestamp (s : State) (f : Port → Port) :
    (s.modPort f).timestamp = s.timestamp := rfl
@[simp] theorem State.modPort_entries (s : State) (f : Port → Port) :
    (s.modPort f).entries = s.entries := rfl
@[simp] theorem State.modPort_entryStaging (s : State) (f : Port → Port) :
    (s.modPort f).entryStaging = s.entryStaging := rfl
@[simp] theorem State.modPort_switches (s : State) (f : Port → Port) :
    (s.modPort f).switches = s.switches := rfl
@[simp] theorem State.modPort_switchStaging (s : State) (f : Port → Port) :
    (s.modPort f).switchStaging = s.switchStaging := rfl
@[simp] theorem State.modPort_trip (s : State) (f : Port → Port) :
    (s.modPort f).trip = s.trip := rfl
@[simp] theorem State.modPort_seq (s : State) (f : Port → Port) :
    (s.modPort f).seq = s.seq := rfl
@[simp] theorem State.modPort_scan (s : State) (f : Port → Port) :
    (s.modPort f).scan = s.scan := rfl
@[simp] theorem State.modPort_records (s : State) (f : Port → Port) :
    (s.modPort f).records = s.records := rfl
@[simp] theorem State.modPort_derivedWritten (s : State) (f : Port → Port) :
    (s.modPort f).derivedWritten = s.derivedWritten := rfl
@[simp] theorem State.modPort_derivedInForce (s : State) (f : Port → Port) :
    (s.modPort f).derivedInForce = s.derivedInForce := rfl
@[simp] theorem State.modPort_captures (s : State) (f : Port → Port) :
    (s.modPort f).captures = s.captures := rfl
@[simp] theorem State.modPort_fault (s : State) (f : Port → Port) :
    (s.modPort f).fault = s.fault := rfl
@[simp] theorem State.modPort_queue (s : State) (f : Port → Port) :
    (s.modPort f).queue = s.queue := rfl
@[simp] theorem State.modPort_port (s : State) (f : Port → Port) :
    (s.modPort f).port = f s.port := rfl
@[simp] theorem State.modPort_choice (s : State) (f : Port → Port) :
    (s.modPort f).choice = s.choice := rfl
@[simp] theorem State.modPort_pending (s : State) (f : Port → Port) :
    (s.modPort f).pending = s.pending := rfl

/-! ### draw -/

@[simp] theorem State.draw_inReset (s : State) (f : Nat → Nat) (n : Nat) :
    (s.draw f n).2.inReset = s.inReset := rfl
@[simp] theorem State.draw_ready (s : State) (f : Nat → Nat) (n : Nat) :
    (s.draw f n).2.ready = s.ready := rfl
@[simp] theorem State.draw_timestamp (s : State) (f : Nat → Nat) (n : Nat) :
    (s.draw f n).2.timestamp = s.timestamp := rfl
@[simp] theorem State.draw_entries (s : State) (f : Nat → Nat) (n : Nat) :
    (s.draw f n).2.entries = s.entries := rfl
@[simp] theorem State.draw_entryStaging (s : State) (f : Nat → Nat) (n : Nat) :
    (s.draw f n).2.entryStaging = s.entryStaging := rfl
@[simp] theorem State.draw_switches (s : State) (f : Nat → Nat) (n : Nat) :
    (s.draw f n).2.switches = s.switches := rfl
@[simp] theorem State.draw_switchStaging (s : State) (f : Nat → Nat) (n : Nat) :
    (s.draw f n).2.switchStaging = s.switchStaging := rfl
@[simp] theorem State.draw_trip (s : State) (f : Nat → Nat) (n : Nat) :
    (s.draw f n).2.trip = s.trip := rfl
@[simp] theorem State.draw_seq (s : State) (f : Nat → Nat) (n : Nat) :
    (s.draw f n).2.seq = s.seq := rfl
@[simp] theorem State.draw_scan (s : State) (f : Nat → Nat) (n : Nat) :
    (s.draw f n).2.scan = s.scan := rfl
@[simp] theorem State.draw_records (s : State) (f : Nat → Nat) (n : Nat) :
    (s.draw f n).2.records = s.records := rfl
@[simp] theorem State.draw_derivedWritten (s : State) (f : Nat → Nat) (n : Nat) :
    (s.draw f n).2.derivedWritten = s.derivedWritten := rfl
@[simp] theorem State.draw_derivedInForce (s : State) (f : Nat → Nat) (n : Nat) :
    (s.draw f n).2.derivedInForce = s.derivedInForce := rfl
@[simp] theorem State.draw_captures (s : State) (f : Nat → Nat) (n : Nat) :
    (s.draw f n).2.captures = s.captures := rfl
@[simp] theorem State.draw_fault (s : State) (f : Nat → Nat) (n : Nat) :
    (s.draw f n).2.fault = s.fault := rfl
@[simp] theorem State.draw_queue (s : State) (f : Nat → Nat) (n : Nat) :
    (s.draw f n).2.queue = s.queue := rfl
@[simp] theorem State.draw_port (s : State) (f : Nat → Nat) (n : Nat) :
    (s.draw f n).2.port = s.port := rfl
@[simp] theorem State.draw_choice (s : State) (f : Nat → Nat) (n : Nat) :
    (s.draw f n).2.choice = s.choice + 1 := rfl
@[simp] theorem State.draw_pending (s : State) (f : Nat → Nat) (n : Nat) :
    (s.draw f n).2.pending = s.pending := rfl

/-! ### post -/

@[simp] theorem State.post_inReset (s : State) (k : EventKind) (o : Option Nat) (d : Half) (c : Fin 4) :
    (s.post k o d c).inReset = s.inReset := rfl
@[simp] theorem State.post_ready (s : State) (k : EventKind) (o : Option Nat) (d : Half) (c : Fin 4) :
    (s.post k o d c).ready = s.ready := rfl
@[simp] theorem State.post_timestamp (s : State) (k : EventKind) (o : Option Nat) (d : Half) (c : Fin 4) :
    (s.post k o d c).timestamp = s.timestamp := rfl
@[simp] theorem State.post_entries (s : State) (k : EventKind) (o : Option Nat) (d : Half) (c : Fin 4) :
    (s.post k o d c).entries = s.entries := rfl
@[simp] theorem State.post_entryStaging (s : State) (k : EventKind) (o : Option Nat) (d : Half) (c : Fin 4) :
    (s.post k o d c).entryStaging = s.entryStaging := rfl
@[simp] theorem State.post_switches (s : State) (k : EventKind) (o : Option Nat) (d : Half) (c : Fin 4) :
    (s.post k o d c).switches = s.switches := rfl
@[simp] theorem State.post_switchStaging (s : State) (k : EventKind) (o : Option Nat) (d : Half) (c : Fin 4) :
    (s.post k o d c).switchStaging = s.switchStaging := rfl
@[simp] theorem State.post_trip (s : State) (k : EventKind) (o : Option Nat) (d : Half) (c : Fin 4) :
    (s.post k o d c).trip = s.trip := rfl
@[simp] theorem State.post_seq (s : State) (k : EventKind) (o : Option Nat) (d : Half) (c : Fin 4) :
    (s.post k o d c).seq = s.seq := rfl
@[simp] theorem State.post_scan (s : State) (k : EventKind) (o : Option Nat) (d : Half) (c : Fin 4) :
    (s.post k o d c).scan = s.scan := rfl
@[simp] theorem State.post_records (s : State) (k : EventKind) (o : Option Nat) (d : Half) (c : Fin 4) :
    (s.post k o d c).records = s.records := rfl
@[simp] theorem State.post_derivedWritten (s : State) (k : EventKind) (o : Option Nat) (d : Half) (c : Fin 4) :
    (s.post k o d c).derivedWritten = s.derivedWritten := rfl
@[simp] theorem State.post_derivedInForce (s : State) (k : EventKind) (o : Option Nat) (d : Half) (c : Fin 4) :
    (s.post k o d c).derivedInForce = s.derivedInForce := rfl
@[simp] theorem State.post_captures (s : State) (k : EventKind) (o : Option Nat) (d : Half) (c : Fin 4) :
    (s.post k o d c).captures = s.captures := rfl
@[simp] theorem State.post_fault (s : State) (k : EventKind) (o : Option Nat) (d : Half) (c : Fin 4) :
    (s.post k o d c).fault = s.fault := rfl
@[simp] theorem State.post_queue (s : State) (k : EventKind) (o : Option Nat) (d : Half) (c : Fin 4) :
    (s.post k o d c).queue = s.queue.arrive
      { seq := 0, timestamp := s.timestamp, kind := k, source := o, detail := d, cls := c, lossBefore := false } := rfl
@[simp] theorem State.post_port (s : State) (k : EventKind) (o : Option Nat) (d : Half) (c : Fin 4) :
    (s.post k o d c).port = s.port := rfl
@[simp] theorem State.post_choice (s : State) (k : EventKind) (o : Option Nat) (d : Half) (c : Fin 4) :
    (s.post k o d c).choice = s.choice := rfl
@[simp] theorem State.post_pending (s : State) (k : EventKind) (o : Option Nat) (d : Half) (c : Fin 4) :
    (s.post k o d c).pending = s.pending := rfl

/-! ### clearQueue -/

@[simp] theorem State.clearQueue_inReset (s : State) :
    (s.clearQueue).inReset = s.inReset := rfl
@[simp] theorem State.clearQueue_ready (s : State) :
    (s.clearQueue).ready = s.ready := rfl
@[simp] theorem State.clearQueue_timestamp (s : State) :
    (s.clearQueue).timestamp = s.timestamp := rfl
@[simp] theorem State.clearQueue_entries (s : State) :
    (s.clearQueue).entries = s.entries := rfl
@[simp] theorem State.clearQueue_entryStaging (s : State) :
    (s.clearQueue).entryStaging = s.entryStaging := rfl
@[simp] theorem State.clearQueue_switches (s : State) :
    (s.clearQueue).switches = s.switches := rfl
@[simp] theorem State.clearQueue_switchStaging (s : State) :
    (s.clearQueue).switchStaging = s.switchStaging := rfl
@[simp] theorem State.clearQueue_trip (s : State) :
    (s.clearQueue).trip = s.trip := rfl
@[simp] theorem State.clearQueue_seq (s : State) :
    (s.clearQueue).seq = s.seq := rfl
@[simp] theorem State.clearQueue_scan (s : State) :
    (s.clearQueue).scan = s.scan := rfl
@[simp] theorem State.clearQueue_records (s : State) :
    (s.clearQueue).records = s.records := rfl
@[simp] theorem State.clearQueue_derivedWritten (s : State) :
    (s.clearQueue).derivedWritten = s.derivedWritten := rfl
@[simp] theorem State.clearQueue_derivedInForce (s : State) :
    (s.clearQueue).derivedInForce = s.derivedInForce := rfl
@[simp] theorem State.clearQueue_captures (s : State) :
    (s.clearQueue).captures = s.captures := rfl
@[simp] theorem State.clearQueue_fault (s : State) :
    (s.clearQueue).fault = s.fault := rfl
@[simp] theorem State.clearQueue_queue (s : State) :
    (s.clearQueue).queue = EventQueue.default := rfl
@[simp] theorem State.clearQueue_port (s : State) :
    (s.clearQueue).port = s.port := rfl
@[simp] theorem State.clearQueue_choice (s : State) :
    (s.clearQueue).choice = s.choice := rfl
@[simp] theorem State.clearQueue_pending (s : State) :
    (s.clearQueue).pending = s.pending := rfl

/-! ### demand -/

@[simp] theorem State.demand_inReset (s : State) (i : Fin 8) (on : Bool) :
    (s.demand i on).inReset = s.inReset := rfl
@[simp] theorem State.demand_ready (s : State) (i : Fin 8) (on : Bool) :
    (s.demand i on).ready = s.ready := rfl
@[simp] theorem State.demand_timestamp (s : State) (i : Fin 8) (on : Bool) :
    (s.demand i on).timestamp = s.timestamp := rfl
@[simp] theorem State.demand_entries (s : State) (i : Fin 8) (on : Bool) :
    (s.demand i on).entries = s.entries := rfl
@[simp] theorem State.demand_entryStaging (s : State) (i : Fin 8) (on : Bool) :
    (s.demand i on).entryStaging = s.entryStaging := rfl
@[simp] theorem State.demand_switches (s : State) (i : Fin 8) (on : Bool) :
    (s.demand i on).switches = s.switches.set i (s.switches[i].takeDemand on) := rfl
@[simp] theorem State.demand_switchStaging (s : State) (i : Fin 8) (on : Bool) :
    (s.demand i on).switchStaging = s.switchStaging := rfl
@[simp] theorem State.demand_trip (s : State) (i : Fin 8) (on : Bool) :
    (s.demand i on).trip = s.trip := rfl
@[simp] theorem State.demand_seq (s : State) (i : Fin 8) (on : Bool) :
    (s.demand i on).seq = s.seq := rfl
@[simp] theorem State.demand_scan (s : State) (i : Fin 8) (on : Bool) :
    (s.demand i on).scan = s.scan := rfl
@[simp] theorem State.demand_records (s : State) (i : Fin 8) (on : Bool) :
    (s.demand i on).records = s.records := rfl
@[simp] theorem State.demand_derivedWritten (s : State) (i : Fin 8) (on : Bool) :
    (s.demand i on).derivedWritten = s.derivedWritten := rfl
@[simp] theorem State.demand_derivedInForce (s : State) (i : Fin 8) (on : Bool) :
    (s.demand i on).derivedInForce = s.derivedInForce := rfl
@[simp] theorem State.demand_captures (s : State) (i : Fin 8) (on : Bool) :
    (s.demand i on).captures = s.captures := rfl
@[simp] theorem State.demand_fault (s : State) (i : Fin 8) (on : Bool) :
    (s.demand i on).fault = s.fault := rfl
@[simp] theorem State.demand_queue (s : State) (i : Fin 8) (on : Bool) :
    (s.demand i on).queue = s.queue := rfl
@[simp] theorem State.demand_port (s : State) (i : Fin 8) (on : Bool) :
    (s.demand i on).port = s.port := rfl
@[simp] theorem State.demand_choice (s : State) (i : Fin 8) (on : Bool) :
    (s.demand i on).choice = s.choice := rfl
@[simp] theorem State.demand_pending (s : State) (i : Fin 8) (on : Bool) :
    (s.demand i on).pending = s.pending := rfl

/-! ### mapSwitches -/

@[simp] theorem State.mapSwitches_inReset (s : State) (f : Fin 8 → Switch → Switch) :
    (s.mapSwitches f).inReset = s.inReset := rfl
@[simp] theorem State.mapSwitches_ready (s : State) (f : Fin 8 → Switch → Switch) :
    (s.mapSwitches f).ready = s.ready := rfl
@[simp] theorem State.mapSwitches_timestamp (s : State) (f : Fin 8 → Switch → Switch) :
    (s.mapSwitches f).timestamp = s.timestamp := rfl
@[simp] theorem State.mapSwitches_entries (s : State) (f : Fin 8 → Switch → Switch) :
    (s.mapSwitches f).entries = s.entries := rfl
@[simp] theorem State.mapSwitches_entryStaging (s : State) (f : Fin 8 → Switch → Switch) :
    (s.mapSwitches f).entryStaging = s.entryStaging := rfl
@[simp] theorem State.mapSwitches_switches (s : State) (f : Fin 8 → Switch → Switch) :
    (s.mapSwitches f).switches = Vector.ofFn fun i => f i s.switches[i] := rfl
@[simp] theorem State.mapSwitches_switchStaging (s : State) (f : Fin 8 → Switch → Switch) :
    (s.mapSwitches f).switchStaging = s.switchStaging := rfl
@[simp] theorem State.mapSwitches_trip (s : State) (f : Fin 8 → Switch → Switch) :
    (s.mapSwitches f).trip = s.trip := rfl
@[simp] theorem State.mapSwitches_seq (s : State) (f : Fin 8 → Switch → Switch) :
    (s.mapSwitches f).seq = s.seq := rfl
@[simp] theorem State.mapSwitches_scan (s : State) (f : Fin 8 → Switch → Switch) :
    (s.mapSwitches f).scan = s.scan := rfl
@[simp] theorem State.mapSwitches_records (s : State) (f : Fin 8 → Switch → Switch) :
    (s.mapSwitches f).records = s.records := rfl
@[simp] theorem State.mapSwitches_derivedWritten (s : State) (f : Fin 8 → Switch → Switch) :
    (s.mapSwitches f).derivedWritten = s.derivedWritten := rfl
@[simp] theorem State.mapSwitches_derivedInForce (s : State) (f : Fin 8 → Switch → Switch) :
    (s.mapSwitches f).derivedInForce = s.derivedInForce := rfl
@[simp] theorem State.mapSwitches_captures (s : State) (f : Fin 8 → Switch → Switch) :
    (s.mapSwitches f).captures = s.captures := rfl
@[simp] theorem State.mapSwitches_fault (s : State) (f : Fin 8 → Switch → Switch) :
    (s.mapSwitches f).fault = s.fault := rfl
@[simp] theorem State.mapSwitches_queue (s : State) (f : Fin 8 → Switch → Switch) :
    (s.mapSwitches f).queue = s.queue := rfl
@[simp] theorem State.mapSwitches_port (s : State) (f : Fin 8 → Switch → Switch) :
    (s.mapSwitches f).port = s.port := rfl
@[simp] theorem State.mapSwitches_choice (s : State) (f : Fin 8 → Switch → Switch) :
    (s.mapSwitches f).choice = s.choice := rfl
@[simp] theorem State.mapSwitches_pending (s : State) (f : Fin 8 → Switch → Switch) :
    (s.mapSwitches f).pending = s.pending := rfl

/-! ### joinMask -/

@[simp] theorem State.joinMask_inReset (s : State) (h : Holder) (m : Byte) :
    (s.joinMask h m).inReset = s.inReset := rfl
@[simp] theorem State.joinMask_ready (s : State) (h : Holder) (m : Byte) :
    (s.joinMask h m).ready = s.ready := rfl
@[simp] theorem State.joinMask_timestamp (s : State) (h : Holder) (m : Byte) :
    (s.joinMask h m).timestamp = s.timestamp := rfl
@[simp] theorem State.joinMask_entries (s : State) (h : Holder) (m : Byte) :
    (s.joinMask h m).entries = s.entries := rfl
@[simp] theorem State.joinMask_entryStaging (s : State) (h : Holder) (m : Byte) :
    (s.joinMask h m).entryStaging = s.entryStaging := rfl
@[simp] theorem State.joinMask_switches (s : State) (h : Holder) (m : Byte) :
    (s.joinMask h m).switches = Vector.ofFn fun i =>
      if m.getLsbD i.val then s.switches[i].join h else s.switches[i] := rfl
@[simp] theorem State.joinMask_switchStaging (s : State) (h : Holder) (m : Byte) :
    (s.joinMask h m).switchStaging = s.switchStaging := rfl
@[simp] theorem State.joinMask_trip (s : State) (h : Holder) (m : Byte) :
    (s.joinMask h m).trip = s.trip := rfl
@[simp] theorem State.joinMask_seq (s : State) (h : Holder) (m : Byte) :
    (s.joinMask h m).seq = s.seq := rfl
@[simp] theorem State.joinMask_scan (s : State) (h : Holder) (m : Byte) :
    (s.joinMask h m).scan = s.scan := rfl
@[simp] theorem State.joinMask_records (s : State) (h : Holder) (m : Byte) :
    (s.joinMask h m).records = s.records := rfl
@[simp] theorem State.joinMask_derivedWritten (s : State) (h : Holder) (m : Byte) :
    (s.joinMask h m).derivedWritten = s.derivedWritten := rfl
@[simp] theorem State.joinMask_derivedInForce (s : State) (h : Holder) (m : Byte) :
    (s.joinMask h m).derivedInForce = s.derivedInForce := rfl
@[simp] theorem State.joinMask_captures (s : State) (h : Holder) (m : Byte) :
    (s.joinMask h m).captures = s.captures := rfl
@[simp] theorem State.joinMask_fault (s : State) (h : Holder) (m : Byte) :
    (s.joinMask h m).fault = s.fault := rfl
@[simp] theorem State.joinMask_queue (s : State) (h : Holder) (m : Byte) :
    (s.joinMask h m).queue = s.queue := rfl
@[simp] theorem State.joinMask_port (s : State) (h : Holder) (m : Byte) :
    (s.joinMask h m).port = s.port := rfl
@[simp] theorem State.joinMask_choice (s : State) (h : Holder) (m : Byte) :
    (s.joinMask h m).choice = s.choice := rfl
@[simp] theorem State.joinMask_pending (s : State) (h : Holder) (m : Byte) :
    (s.joinMask h m).pending = s.pending := rfl

/-! ### leaveMask -/

@[simp] theorem State.leaveMask_inReset (s : State) (h : Holder) (m : Byte) :
    (s.leaveMask h m).inReset = s.inReset := rfl
@[simp] theorem State.leaveMask_ready (s : State) (h : Holder) (m : Byte) :
    (s.leaveMask h m).ready = s.ready := rfl
@[simp] theorem State.leaveMask_timestamp (s : State) (h : Holder) (m : Byte) :
    (s.leaveMask h m).timestamp = s.timestamp := rfl
@[simp] theorem State.leaveMask_entries (s : State) (h : Holder) (m : Byte) :
    (s.leaveMask h m).entries = s.entries := rfl
@[simp] theorem State.leaveMask_entryStaging (s : State) (h : Holder) (m : Byte) :
    (s.leaveMask h m).entryStaging = s.entryStaging := rfl
@[simp] theorem State.leaveMask_switches (s : State) (h : Holder) (m : Byte) :
    (s.leaveMask h m).switches = Vector.ofFn fun i =>
      if m.getLsbD i.val then s.switches[i].leave h else s.switches[i] := rfl
@[simp] theorem State.leaveMask_switchStaging (s : State) (h : Holder) (m : Byte) :
    (s.leaveMask h m).switchStaging = s.switchStaging := rfl
@[simp] theorem State.leaveMask_trip (s : State) (h : Holder) (m : Byte) :
    (s.leaveMask h m).trip = s.trip := rfl
@[simp] theorem State.leaveMask_seq (s : State) (h : Holder) (m : Byte) :
    (s.leaveMask h m).seq = s.seq := rfl
@[simp] theorem State.leaveMask_scan (s : State) (h : Holder) (m : Byte) :
    (s.leaveMask h m).scan = s.scan := rfl
@[simp] theorem State.leaveMask_records (s : State) (h : Holder) (m : Byte) :
    (s.leaveMask h m).records = s.records := rfl
@[simp] theorem State.leaveMask_derivedWritten (s : State) (h : Holder) (m : Byte) :
    (s.leaveMask h m).derivedWritten = s.derivedWritten := rfl
@[simp] theorem State.leaveMask_derivedInForce (s : State) (h : Holder) (m : Byte) :
    (s.leaveMask h m).derivedInForce = s.derivedInForce := rfl
@[simp] theorem State.leaveMask_captures (s : State) (h : Holder) (m : Byte) :
    (s.leaveMask h m).captures = s.captures := rfl
@[simp] theorem State.leaveMask_fault (s : State) (h : Holder) (m : Byte) :
    (s.leaveMask h m).fault = s.fault := rfl
@[simp] theorem State.leaveMask_queue (s : State) (h : Holder) (m : Byte) :
    (s.leaveMask h m).queue = s.queue := rfl
@[simp] theorem State.leaveMask_port (s : State) (h : Holder) (m : Byte) :
    (s.leaveMask h m).port = s.port := rfl
@[simp] theorem State.leaveMask_choice (s : State) (h : Holder) (m : Byte) :
    (s.leaveMask h m).choice = s.choice := rfl
@[simp] theorem State.leaveMask_pending (s : State) (h : Holder) (m : Byte) :
    (s.leaveMask h m).pending = s.pending := rfl

/-! ### tripHolds -/

@[simp] theorem State.tripHolds_inReset (s : State) (seen : Bool) :
    (s.tripHolds seen).inReset = s.inReset := rfl
@[simp] theorem State.tripHolds_ready (s : State) (seen : Bool) :
    (s.tripHolds seen).ready = s.ready := rfl
@[simp] theorem State.tripHolds_timestamp (s : State) (seen : Bool) :
    (s.tripHolds seen).timestamp = s.timestamp := rfl
@[simp] theorem State.tripHolds_entries (s : State) (seen : Bool) :
    (s.tripHolds seen).entries = s.entries := rfl
@[simp] theorem State.tripHolds_entryStaging (s : State) (seen : Bool) :
    (s.tripHolds seen).entryStaging = s.entryStaging := rfl
@[simp] theorem State.tripHolds_switches (s : State) (seen : Bool) :
    (s.tripHolds seen).switches = Vector.ofFn fun i =>
      if s.switches[i].config.obeysTrip then (if seen then s.switches[i].join .x else s.switches[i].leave .x)
      else s.switches[i] := rfl
@[simp] theorem State.tripHolds_switchStaging (s : State) (seen : Bool) :
    (s.tripHolds seen).switchStaging = s.switchStaging := rfl
@[simp] theorem State.tripHolds_trip (s : State) (seen : Bool) :
    (s.tripHolds seen).trip = s.trip := rfl
@[simp] theorem State.tripHolds_seq (s : State) (seen : Bool) :
    (s.tripHolds seen).seq = s.seq := rfl
@[simp] theorem State.tripHolds_scan (s : State) (seen : Bool) :
    (s.tripHolds seen).scan = s.scan := rfl
@[simp] theorem State.tripHolds_records (s : State) (seen : Bool) :
    (s.tripHolds seen).records = s.records := rfl
@[simp] theorem State.tripHolds_derivedWritten (s : State) (seen : Bool) :
    (s.tripHolds seen).derivedWritten = s.derivedWritten := rfl
@[simp] theorem State.tripHolds_derivedInForce (s : State) (seen : Bool) :
    (s.tripHolds seen).derivedInForce = s.derivedInForce := rfl
@[simp] theorem State.tripHolds_captures (s : State) (seen : Bool) :
    (s.tripHolds seen).captures = s.captures := rfl
@[simp] theorem State.tripHolds_fault (s : State) (seen : Bool) :
    (s.tripHolds seen).fault = s.fault := rfl
@[simp] theorem State.tripHolds_queue (s : State) (seen : Bool) :
    (s.tripHolds seen).queue = s.queue := rfl
@[simp] theorem State.tripHolds_port (s : State) (seen : Bool) :
    (s.tripHolds seen).port = s.port := rfl
@[simp] theorem State.tripHolds_choice (s : State) (seen : Bool) :
    (s.tripHolds seen).choice = s.choice := rfl
@[simp] theorem State.tripHolds_pending (s : State) (seen : Bool) :
    (s.tripHolds seen).pending = s.pending := rfl

/-! ### unpin -/

@[simp] theorem State.unpin_inReset (s : State) (n : Fin 32) :
    (s.unpin n).inReset = s.inReset := rfl
@[simp] theorem State.unpin_ready (s : State) (n : Fin 32) :
    (s.unpin n).ready = s.ready := rfl
@[simp] theorem State.unpin_timestamp (s : State) (n : Fin 32) :
    (s.unpin n).timestamp = s.timestamp := rfl
@[simp] theorem State.unpin_entries (s : State) (n : Fin 32) :
    (s.unpin n).entries = s.entries := rfl
@[simp] theorem State.unpin_entryStaging (s : State) (n : Fin 32) :
    (s.unpin n).entryStaging = s.entryStaging := rfl
@[simp] theorem State.unpin_switches (s : State) (n : Fin 32) :
    (s.unpin n).switches = s.switches := rfl
@[simp] theorem State.unpin_switchStaging (s : State) (n : Fin 32) :
    (s.unpin n).switchStaging = s.switchStaging := rfl
@[simp] theorem State.unpin_trip (s : State) (n : Fin 32) :
    (s.unpin n).trip = s.trip := rfl
@[simp] theorem State.unpin_seq (s : State) (n : Fin 32) :
    (s.unpin n).seq = s.seq := rfl
@[simp] theorem State.unpin_scan (s : State) (n : Fin 32) :
    (s.unpin n).scan = s.scan := rfl
@[simp] theorem State.unpin_records (s : State) (n : Fin 32) :
    (s.unpin n).records = s.records := rfl
@[simp] theorem State.unpin_derivedWritten (s : State) (n : Fin 32) :
    (s.unpin n).derivedWritten = s.derivedWritten := rfl
@[simp] theorem State.unpin_derivedInForce (s : State) (n : Fin 32) :
    (s.unpin n).derivedInForce = s.derivedInForce := rfl
@[simp] theorem State.unpin_captures (s : State) (n : Fin 32) :
    (s.unpin n).captures = s.captures.unpin n := rfl
@[simp] theorem State.unpin_fault (s : State) (n : Fin 32) :
    (s.unpin n).fault = s.fault := rfl
@[simp] theorem State.unpin_queue (s : State) (n : Fin 32) :
    (s.unpin n).queue = s.queue := rfl
@[simp] theorem State.unpin_port (s : State) (n : Fin 32) :
    (s.unpin n).port = s.port := rfl
@[simp] theorem State.unpin_choice (s : State) (n : Fin 32) :
    (s.unpin n).choice = s.choice := rfl
@[simp] theorem State.unpin_pending (s : State) (n : Fin 32) :
    (s.unpin n).pending = s.pending := rfl

/-! ### send -/

@[simp] theorem State.send_inReset (s : State) (m : ClearMessage) :
    (s.send m).inReset = s.inReset := rfl
@[simp] theorem State.send_ready (s : State) (m : ClearMessage) :
    (s.send m).ready = s.ready := rfl
@[simp] theorem State.send_timestamp (s : State) (m : ClearMessage) :
    (s.send m).timestamp = s.timestamp := rfl
@[simp] theorem State.send_entries (s : State) (m : ClearMessage) :
    (s.send m).entries = s.entries := rfl
@[simp] theorem State.send_entryStaging (s : State) (m : ClearMessage) :
    (s.send m).entryStaging = s.entryStaging := rfl
@[simp] theorem State.send_switches (s : State) (m : ClearMessage) :
    (s.send m).switches = s.switches := rfl
@[simp] theorem State.send_switchStaging (s : State) (m : ClearMessage) :
    (s.send m).switchStaging = s.switchStaging := rfl
@[simp] theorem State.send_trip (s : State) (m : ClearMessage) :
    (s.send m).trip = s.trip := rfl
@[simp] theorem State.send_seq (s : State) (m : ClearMessage) :
    (s.send m).seq = s.seq := rfl
@[simp] theorem State.send_scan (s : State) (m : ClearMessage) :
    (s.send m).scan = s.scan := rfl
@[simp] theorem State.send_records (s : State) (m : ClearMessage) :
    (s.send m).records = s.records := rfl
@[simp] theorem State.send_derivedWritten (s : State) (m : ClearMessage) :
    (s.send m).derivedWritten = s.derivedWritten := rfl
@[simp] theorem State.send_derivedInForce (s : State) (m : ClearMessage) :
    (s.send m).derivedInForce = s.derivedInForce := rfl
@[simp] theorem State.send_captures (s : State) (m : ClearMessage) :
    (s.send m).captures = s.captures := rfl
@[simp] theorem State.send_fault (s : State) (m : ClearMessage) :
    (s.send m).fault = { s.fault with sent := s.fault.sent ++ [m] } := rfl
@[simp] theorem State.send_queue (s : State) (m : ClearMessage) :
    (s.send m).queue = s.queue := rfl
@[simp] theorem State.send_port (s : State) (m : ClearMessage) :
    (s.send m).port = s.port := rfl
@[simp] theorem State.send_choice (s : State) (m : ClearMessage) :
    (s.send m).choice = s.choice := rfl
@[simp] theorem State.send_pending (s : State) (m : ClearMessage) :
    (s.send m).pending = s.pending := rfl

/-! ### tick -/

@[simp] theorem State.tick_inReset (s : State) :
    (s.tick).inReset = s.inReset := rfl
@[simp] theorem State.tick_ready (s : State) :
    (s.tick).ready = s.ready := rfl
@[simp] theorem State.tick_timestamp (s : State) :
    (s.tick).timestamp = s.timestamp + 1 := rfl
@[simp] theorem State.tick_entries (s : State) :
    (s.tick).entries = s.entries.map Entry.tick := rfl
@[simp] theorem State.tick_entryStaging (s : State) :
    (s.tick).entryStaging = s.entryStaging := rfl
@[simp] theorem State.tick_switches (s : State) :
    (s.tick).switches = s.switches.map Switch.tick := rfl
@[simp] theorem State.tick_switchStaging (s : State) :
    (s.tick).switchStaging = s.switchStaging := rfl
@[simp] theorem State.tick_trip (s : State) :
    (s.tick).trip = s.trip := rfl
@[simp] theorem State.tick_seq (s : State) :
    (s.tick).seq = s.seq.tick := rfl
@[simp] theorem State.tick_scan (s : State) :
    (s.tick).scan = s.scan.tick := rfl
@[simp] theorem State.tick_records (s : State) :
    (s.tick).records = s.records := rfl
@[simp] theorem State.tick_derivedWritten (s : State) :
    (s.tick).derivedWritten = s.derivedWritten := rfl
@[simp] theorem State.tick_derivedInForce (s : State) :
    (s.tick).derivedInForce = s.derivedInForce := rfl
@[simp] theorem State.tick_captures (s : State) :
    (s.tick).captures = s.captures := rfl
@[simp] theorem State.tick_fault (s : State) :
    (s.tick).fault = s.fault := rfl
@[simp] theorem State.tick_queue (s : State) :
    (s.tick).queue = s.queue := rfl
@[simp] theorem State.tick_port (s : State) :
    (s.tick).port = s.port := rfl
@[simp] theorem State.tick_choice (s : State) :
    (s.tick).choice = s.choice := rfl
@[simp] theorem State.tick_pending (s : State) :
    (s.tick).pending = s.pending := rfl

/-! ### setResult -/

@[simp] theorem State.setResult_inReset (s : State) (c : ResultCode) (d : Byte) :
    (s.setResult c d).inReset = s.inReset := rfl
@[simp] theorem State.setResult_ready (s : State) (c : ResultCode) (d : Byte) :
    (s.setResult c d).ready = s.ready := rfl
@[simp] theorem State.setResult_timestamp (s : State) (c : ResultCode) (d : Byte) :
    (s.setResult c d).timestamp = s.timestamp := rfl
@[simp] theorem State.setResult_entries (s : State) (c : ResultCode) (d : Byte) :
    (s.setResult c d).entries = s.entries := rfl
@[simp] theorem State.setResult_entryStaging (s : State) (c : ResultCode) (d : Byte) :
    (s.setResult c d).entryStaging = s.entryStaging := rfl
@[simp] theorem State.setResult_switches (s : State) (c : ResultCode) (d : Byte) :
    (s.setResult c d).switches = s.switches := rfl
@[simp] theorem State.setResult_switchStaging (s : State) (c : ResultCode) (d : Byte) :
    (s.setResult c d).switchStaging = s.switchStaging := rfl
@[simp] theorem State.setResult_trip (s : State) (c : ResultCode) (d : Byte) :
    (s.setResult c d).trip = s.trip := rfl
@[simp] theorem State.setResult_seq (s : State) (c : ResultCode) (d : Byte) :
    (s.setResult c d).seq = s.seq := rfl
@[simp] theorem State.setResult_scan (s : State) (c : ResultCode) (d : Byte) :
    (s.setResult c d).scan = s.scan := rfl
@[simp] theorem State.setResult_records (s : State) (c : ResultCode) (d : Byte) :
    (s.setResult c d).records = s.records := rfl
@[simp] theorem State.setResult_derivedWritten (s : State) (c : ResultCode) (d : Byte) :
    (s.setResult c d).derivedWritten = s.derivedWritten := rfl
@[simp] theorem State.setResult_derivedInForce (s : State) (c : ResultCode) (d : Byte) :
    (s.setResult c d).derivedInForce = s.derivedInForce := rfl
@[simp] theorem State.setResult_captures (s : State) (c : ResultCode) (d : Byte) :
    (s.setResult c d).captures = s.captures := rfl
@[simp] theorem State.setResult_fault (s : State) (c : ResultCode) (d : Byte) :
    (s.setResult c d).fault = s.fault := rfl
@[simp] theorem State.setResult_queue (s : State) (c : ResultCode) (d : Byte) :
    (s.setResult c d).queue = s.queue := rfl
@[simp] theorem State.setResult_port (s : State) (c : ResultCode) (d : Byte) :
    (s.setResult c d).port = { s.port with result := { code := c, tag := s.port.tag, detail := d } } := rfl
@[simp] theorem State.setResult_choice (s : State) (c : ResultCode) (d : Byte) :
    (s.setResult c d).choice = s.choice := rfl
@[simp] theorem State.setResult_pending (s : State) (c : ResultCode) (d : Byte) :
    (s.setResult c d).pending = s.pending := rfl

/-! ### byteTaken -/

@[simp] theorem State.byteTaken_inReset (s : State) :
    (s.byteTaken).inReset = s.inReset := rfl
@[simp] theorem State.byteTaken_ready (s : State) :
    (s.byteTaken).ready = s.ready := rfl
@[simp] theorem State.byteTaken_timestamp (s : State) :
    (s.byteTaken).timestamp = s.timestamp := rfl
@[simp] theorem State.byteTaken_entries (s : State) :
    (s.byteTaken).entries = s.entries := rfl
@[simp] theorem State.byteTaken_entryStaging (s : State) :
    (s.byteTaken).entryStaging = s.entryStaging := rfl
@[simp] theorem State.byteTaken_switches (s : State) :
    (s.byteTaken).switches = s.switches := rfl
@[simp] theorem State.byteTaken_switchStaging (s : State) :
    (s.byteTaken).switchStaging = s.switchStaging := rfl
@[simp] theorem State.byteTaken_trip (s : State) :
    (s.byteTaken).trip = s.trip := rfl
@[simp] theorem State.byteTaken_seq (s : State) :
    (s.byteTaken).seq = s.seq := rfl
@[simp] theorem State.byteTaken_scan (s : State) :
    (s.byteTaken).scan = s.scan := rfl
@[simp] theorem State.byteTaken_records (s : State) :
    (s.byteTaken).records = s.records := rfl
@[simp] theorem State.byteTaken_derivedWritten (s : State) :
    (s.byteTaken).derivedWritten = s.derivedWritten := rfl
@[simp] theorem State.byteTaken_derivedInForce (s : State) :
    (s.byteTaken).derivedInForce = s.derivedInForce := rfl
@[simp] theorem State.byteTaken_captures (s : State) :
    (s.byteTaken).captures = s.captures := rfl
@[simp] theorem State.byteTaken_fault (s : State) :
    (s.byteTaken).fault = s.fault := rfl
@[simp] theorem State.byteTaken_queue (s : State) :
    (s.byteTaken).queue = s.queue := rfl
@[simp] theorem State.byteTaken_port (s : State) :
    (s.byteTaken).port = { s.port with pointer := s.port.pointer + 1, acked := true } := rfl
@[simp] theorem State.byteTaken_choice (s : State) :
    (s.byteTaken).choice = s.choice := rfl
@[simp] theorem State.byteTaken_pending (s : State) :
    (s.byteTaken).pending = s.pending := rfl

/-! ### answered -/

@[simp] theorem State.answered_inReset (s : State) (c : ResultCode) (d : Byte) :
    (s.answered c d).inReset = s.inReset := rfl
@[simp] theorem State.answered_ready (s : State) (c : ResultCode) (d : Byte) :
    (s.answered c d).ready = s.ready := rfl
@[simp] theorem State.answered_timestamp (s : State) (c : ResultCode) (d : Byte) :
    (s.answered c d).timestamp = s.timestamp := rfl
@[simp] theorem State.answered_entries (s : State) (c : ResultCode) (d : Byte) :
    (s.answered c d).entries = s.entries := rfl
@[simp] theorem State.answered_entryStaging (s : State) (c : ResultCode) (d : Byte) :
    (s.answered c d).entryStaging = s.entryStaging := rfl
@[simp] theorem State.answered_switches (s : State) (c : ResultCode) (d : Byte) :
    (s.answered c d).switches = s.switches := rfl
@[simp] theorem State.answered_switchStaging (s : State) (c : ResultCode) (d : Byte) :
    (s.answered c d).switchStaging = s.switchStaging := rfl
@[simp] theorem State.answered_trip (s : State) (c : ResultCode) (d : Byte) :
    (s.answered c d).trip = s.trip := rfl
@[simp] theorem State.answered_seq (s : State) (c : ResultCode) (d : Byte) :
    (s.answered c d).seq = s.seq := rfl
@[simp] theorem State.answered_scan (s : State) (c : ResultCode) (d : Byte) :
    (s.answered c d).scan = s.scan := rfl
@[simp] theorem State.answered_records (s : State) (c : ResultCode) (d : Byte) :
    (s.answered c d).records = s.records := rfl
@[simp] theorem State.answered_derivedWritten (s : State) (c : ResultCode) (d : Byte) :
    (s.answered c d).derivedWritten = s.derivedWritten := rfl
@[simp] theorem State.answered_derivedInForce (s : State) (c : ResultCode) (d : Byte) :
    (s.answered c d).derivedInForce = s.derivedInForce := rfl
@[simp] theorem State.answered_captures (s : State) (c : ResultCode) (d : Byte) :
    (s.answered c d).captures = s.captures := rfl
@[simp] theorem State.answered_fault (s : State) (c : ResultCode) (d : Byte) :
    (s.answered c d).fault = s.fault := rfl
@[simp] theorem State.answered_queue (s : State) (c : ResultCode) (d : Byte) :
    (s.answered c d).queue = s.queue := rfl
@[simp] theorem State.answered_port (s : State) (c : ResultCode) (d : Byte) :
    (s.answered c d).port = { s.port with
      result := { code := c, tag := s.port.tag, detail := d }, pointer := s.port.pointer + 1, acked := true } := rfl
@[simp] theorem State.answered_choice (s : State) (c : ResultCode) (d : Byte) :
    (s.answered c d).choice = s.choice := rfl
@[simp] theorem State.answered_pending (s : State) (c : ResultCode) (d : Byte) :
    (s.answered c d).pending = s.pending := rfl

/-! ### acknowledged -/

@[simp] theorem State.acknowledged_inReset (s : State) :
    (s.acknowledged).inReset = s.inReset := rfl
@[simp] theorem State.acknowledged_ready (s : State) :
    (s.acknowledged).ready = s.ready := rfl
@[simp] theorem State.acknowledged_timestamp (s : State) :
    (s.acknowledged).timestamp = s.timestamp := rfl
@[simp] theorem State.acknowledged_entries (s : State) :
    (s.acknowledged).entries = s.entries := rfl
@[simp] theorem State.acknowledged_entryStaging (s : State) :
    (s.acknowledged).entryStaging = s.entryStaging := rfl
@[simp] theorem State.acknowledged_switches (s : State) :
    (s.acknowledged).switches = s.switches := rfl
@[simp] theorem State.acknowledged_switchStaging (s : State) :
    (s.acknowledged).switchStaging = s.switchStaging := rfl
@[simp] theorem State.acknowledged_trip (s : State) :
    (s.acknowledged).trip = s.trip := rfl
@[simp] theorem State.acknowledged_seq (s : State) :
    (s.acknowledged).seq = s.seq := rfl
@[simp] theorem State.acknowledged_scan (s : State) :
    (s.acknowledged).scan = s.scan := rfl
@[simp] theorem State.acknowledged_records (s : State) :
    (s.acknowledged).records = s.records := rfl
@[simp] theorem State.acknowledged_derivedWritten (s : State) :
    (s.acknowledged).derivedWritten = s.derivedWritten := rfl
@[simp] theorem State.acknowledged_derivedInForce (s : State) :
    (s.acknowledged).derivedInForce = s.derivedInForce := rfl
@[simp] theorem State.acknowledged_captures (s : State) :
    (s.acknowledged).captures = s.captures := rfl
@[simp] theorem State.acknowledged_fault (s : State) :
    (s.acknowledged).fault = s.fault := rfl
@[simp] theorem State.acknowledged_queue (s : State) :
    (s.acknowledged).queue = s.queue := rfl
@[simp] theorem State.acknowledged_port (s : State) :
    (s.acknowledged).port = { s.port with pointer := s.port.pointer + 1, acked := true } := rfl
@[simp] theorem State.acknowledged_choice (s : State) :
    (s.acknowledged).choice = s.choice := rfl
@[simp] theorem State.acknowledged_pending (s : State) :
    (s.acknowledged).pending = s.pending := rfl

end Sys2Proof.Machine
end

