-- ==== Sys2Proof/Laws/Queue.lean ====
section
/-! SUPPORT. What the Event Queue does with an arrival, and that each of its operations keeps it sound. -/

namespace Sys2Proof.Machine

/-! ### Removing the last element that satisfies a predicate -/

/-- The element removed is the last that satisfies `p`; the others keep their order. -/
theorem eraseLast_eq {α : Type} {p : α → Bool} {before after : List α} {x : α} (hx : p x = true)
    (h : ∀ y ∈ after, p y = false) : eraseLast p (before ++ x :: after) = before ++ after := by
  unfold eraseLast
  have hr : (before ++ x :: after).reverse = after.reverse ++ x :: before.reverse := by simp
  rw [hr, List.eraseP_append_right _ (by simpa using h), List.eraseP_cons_of_pos hx]
  simp

/-- A list that holds an element satisfying `p` splits at the last one. -/
theorem exists_last {α : Type} {p : α → Bool} {l : List α} (h : ∃ x ∈ l, p x = true) :
    ∃ before x after, l = before ++ x :: after ∧ p x = true ∧ ∀ y ∈ after, p y = false := by
  induction l with
  | nil => simp at h
  | cons a l ih =>
    by_cases hl : ∃ x ∈ l, p x = true
    · obtain ⟨b, x, c, rfl, hx, hc⟩ := ih hl
      exact ⟨a :: b, x, c, rfl, hx, hc⟩
    · refine ⟨[], a, l, rfl, ?_, ?_⟩
      · obtain ⟨x, hx, hp⟩ := h
        rcases List.mem_cons.1 hx with rfl | hx
        · exact hp
        · exact absurd ⟨x, hx, hp⟩ hl
      · intro y hy
        by_contra hp
        exact hl ⟨y, hy, by simpa using hp⟩

/-- One element fewer where some element satisfies `p`. -/
theorem eraseLast_length {α : Type} {p : α → Bool} {l : List α} (h : ∃ x ∈ l, p x = true) :
    (eraseLast p l).length + 1 = l.length := by
  obtain ⟨b, x, c, rfl, hx, hc⟩ := exists_last h
  rw [eraseLast_eq hx hc]
  simp; omega

/-! ### The lowest class -/

theorem EventQueue.lowestClass_le {q : EventQueue} {r : EventRecord} (h : r ∈ q.records) :
    q.lowestClass ≤ r.cls.val := by
  unfold EventQueue.lowestClass
  generalize q.records = l at h
  induction l with
  | nil => simp at h
  | cons a l ih =>
    rcases List.mem_cons.1 h with rfl | h
    · simp
    · simp only [List.map_cons, List.foldr_cons]
      exact le_trans (min_le_right _ _) (ih h)

theorem EventQueue.lowestClass_mem {q : EventQueue} (h : q.records ≠ []) :
    ∃ r ∈ q.records, r.cls.val = q.lowestClass := by
  unfold EventQueue.lowestClass
  generalize q.records = l at h
  induction l with
  | nil => simp at h
  | cons a l ih =>
    simp only [List.map_cons, List.foldr_cons, List.mem_cons]
    by_cases hl : l = []
    · subst hl; exact ⟨a, by simp, by have := a.cls.isLt; simp only [List.map_nil, List.foldr_nil]; omega⟩
    · obtain ⟨r, hr, he⟩ := ih hl
      by_cases hm : a.cls.val ≤ (l.map fun r => r.cls.val).foldr min 4
      · exact ⟨a, .inl rfl, by omega⟩
      · exact ⟨r, .inr hr, by omega⟩

/-! ### Arrivals -/

/-- With room the arrival is accepted (R156). -/
theorem EventQueue.arrive_room {q : EventQueue} (r : EventRecord) (h : q.records.length < 32) :
    q.arrive r = q.accept r := by
  simp [EventQueue.arrive, h]

/-- A full queue whose lowest class is lower displaces its newest record of that class (R158). -/
theorem EventQueue.arrive_displace {q : EventQueue} (r : EventRecord) (h : ¬q.records.length < 32)
    (hl : q.lowestClass < r.cls.val) : q.arrive r = q.displace.lose.accept r := by
  simp [EventQueue.arrive, h, hl]

/-- Any other full queue drops the arrival (R158). -/
theorem EventQueue.arrive_discard {q : EventQueue} (r : EventRecord) (h : ¬q.records.length < 32)
    (hl : ¬q.lowestClass < r.cls.val) : q.arrive r = q.lose := by
  simp [EventQueue.arrive, h, hl]

/-- An acceptance brings ALERT_N up to date (R156, R163). -/
theorem EventQueue.updated_alert (q : EventQueue) :
    q.updated.alert = true ↔ ∃ r ∈ q.records, q.alertLevel.val ≤ r.cls.val := by
  simp [EventQueue.updated, EventQueue.alertCondition]

theorem EventQueue.sound.updated {q : EventQueue} (h : q.records.length ≤ 32) : q.updated.sound :=
  ⟨h, q.updated_alert⟩

theorem EventQueue.sound.accept {q : EventQueue} (r : EventRecord) (h : q.records.length < 32) : (q.accept r).sound :=
  EventQueue.sound.updated (by simpa using h)

/-- An arrival keeps the queue sound. -/
theorem EventQueue.sound.arrive {q : EventQueue} (h : q.sound) (r : EventRecord) : (q.arrive r).sound := by
  by_cases hr : q.records.length < 32
  · rw [q.arrive_room r hr]; exact .accept r hr
  · by_cases hl : q.lowestClass < r.cls.val
    · rw [q.arrive_displace r hr hl]
      refine .accept r ?_
      have hne : q.records ≠ [] := by intro e; simp [e] at hr
      obtain ⟨x, hx, he⟩ := EventQueue.lowestClass_mem hne
      have := eraseLast_length (p := fun r : EventRecord => r.cls.val == q.lowestClass) (l := q.records)
        ⟨x, hx, by simp [he]⟩
      have := h.1
      show (eraseLast _ q.records).length < 32
      omega
    · rw [q.arrive_discard r hr hl]; exact h

theorem EventQueue.sound.tail {q : EventQueue} {r : EventRecord} {rest : List EventRecord} (h : q.sound)
    (hr : q.records = r :: rest) : ({ q with records := rest } : EventQueue).updated.sound :=
  .updated (by have := h.1; simp [hr] at this; simp; omega)

theorem EventQueue.default_sound : EventQueue.default.sound := by
  simp [EventQueue.sound, EventQueue.default]

end Sys2Proof.Machine
end

