-- ==== Sys2Proof/Laws/Captures.lean ====
section
/-! SUPPORT. What the Capture Store does at a request, at an unpin and at a drop, and that each keeps it sound. -/

namespace Sys2Proof.Machine

/-! ### Ids -/

/-- The search passes over the ids held, one after the other, and stops at the first that none carries (R129). -/
theorem firstFreeId_spec (held : List Byte) (tries : Nat) (id : Byte)
    (h : ∃ j, j < tries ∧ id + BitVec.ofNat 8 j ∉ held) :
    ∃ j, j < tries ∧ firstFreeId held tries id = id + BitVec.ofNat 8 j ∧ id + BitVec.ofNat 8 j ∉ held ∧
      ∀ k, k < j → id + BitVec.ofNat 8 k ∈ held := by
  induction tries generalizing id with
  | zero => obtain ⟨j, hj, _⟩ := h; omega
  | succ tries ih =>
    by_cases hm : id ∈ held
    · have step : ∀ k, id + 1 + BitVec.ofNat 8 k = id + BitVec.ofNat 8 (k + 1) := by
        intro k; rw [Nat.add_comm, BitVec.ofNat_add, BitVec.add_assoc]; rfl
      obtain ⟨j, hj, hn⟩ := h
      have hj0 : j ≠ 0 := by rintro rfl; simp at hn; exact hn hm
      obtain ⟨j', rfl⟩ : ∃ j', j = j' + 1 := ⟨j - 1, by omega⟩
      obtain ⟨m, hm1, hm2, hm3, hm4⟩ := ih (id + 1) ⟨j', by omega, by rw [step]; exact hn⟩
      refine ⟨m + 1, by omega, ?_, by rw [← step]; exact hm3, ?_⟩
      · simp only [firstFreeId, List.contains_iff_mem, hm, if_true]
        rw [hm2, step]
      · intro k hk
        rcases Nat.eq_zero_or_pos k with rfl | hk0
        · simpa using hm
        · obtain ⟨k', rfl⟩ : ∃ k', k = k' + 1 := ⟨k - 1, by omega⟩
          rw [← step]; exact hm4 k' (by omega)
    · refine ⟨0, by omega, by simp [firstFreeId, hm], by simpa using hm, by omega⟩

/-- Among nine values in a row one is carried by none of at most eight records. -/
theorem exists_free (held : List Byte) (h : held.length ≤ 8) (id : Byte) :
    ∃ j, j < 9 ∧ id + BitVec.ofNat 8 j ∉ held := by
  by_contra hc
  have hall : ∀ j, j < 9 → id + BitVec.ofNat 8 j ∈ held := by
    intro j hj
    by_contra hn
    exact hc ⟨j, hj, hn⟩
  have hsub : (List.range 9).map (fun j => id + BitVec.ofNat 8 j) ⊆ held := by
    intro x hx
    obtain ⟨j, hj, rfl⟩ := List.mem_map.1 hx
    exact hall j (List.mem_range.1 hj)
  have hnd : ((List.range 9).map fun j => id + BitVec.ofNat 8 j).Nodup := by
    refine List.Nodup.map_on ?_ List.nodup_range
    intro a ha b hb e
    have ha := List.mem_range.1 ha
    have hb := List.mem_range.1 hb
    have := (BitVec.add_right_inj id).1 e
    have := congrArg BitVec.toNat this
    simp at this
    omega
  have := (List.Nodup.subperm hnd hsub).length_le
  simp at this
  omega

/-- The id of a new record: within nine tries of the counter, carried by no record held (R129). -/
theorem CaptureStore.assignId_spec {c : CaptureStore} (h : c.records.length ≤ 8) :
    ∃ j, j ≤ 8 ∧ c.assignId = c.nextId + BitVec.ofNat 8 j ∧ c.assignId ∉ c.records.map CaptureRecord.id ∧
      ∀ k, k < j → c.nextId + BitVec.ofNat 8 k ∈ c.records.map CaptureRecord.id := by
  obtain ⟨j, h1, h2, h3, h4⟩ := firstFreeId_spec (c.records.map CaptureRecord.id) 9 c.nextId
    (exists_free _ (by simpa using h) _)
  refine ⟨j, by omega, h2, ?_, h4⟩
  rw [CaptureStore.assignId, h2]; exact h3

/-! ### Room -/

/-- A full store loses its oldest unpinned record (R130). -/
theorem CaptureStore.makeRoom_full {c : CaptureStore} (h : c.sound) (hf : c.records.length = 8) :
    ∃ newer r older, c.records = newer ++ r :: older ∧ r.pinned = false ∧ (∀ x ∈ older, x.pinned = true) ∧
      c.makeRoom.records = newer ++ older := by
  have hex : ∃ r ∈ c.records, (fun r : CaptureRecord => !r.pinned) r = true := by
    by_contra hc
    have hall : ∀ r ∈ c.records, r.pinned = true := by
      intro r hr
      by_contra hp
      exact hc ⟨r, hr, by simpa using hp⟩
    have : c.pinnedCount = c.records.length := List.countP_eq_length.2 hall
    have := h.2.1
    omega
  obtain ⟨b, r, a, he, hr, ha⟩ := exists_last hex
  refine ⟨b, r, a, he, by simpa using hr, by simpa using ha, ?_⟩
  have : ¬c.records.length < 8 := by omega
  simp only [CaptureStore.makeRoom, this, if_false]
  rw [he]
  exact eraseLast_eq hr ha

theorem CaptureStore.makeRoom_room {c : CaptureStore} (h : c.records.length < 8) : c.makeRoom = c := by
  simp [CaptureStore.makeRoom, h]

/-- Making room leaves at most seven records, all of them held before, with the same pins. -/
theorem CaptureStore.makeRoom_spec {c : CaptureStore} (h : c.sound) :
    c.makeRoom.records.length < 8 ∧ c.makeRoom.records.Sublist c.records ∧ c.makeRoom.pinnedCount = c.pinnedCount := by
  by_cases hl : c.records.length < 8
  · rw [c.makeRoom_room hl]; exact ⟨hl, List.Sublist.refl _, rfl⟩
  · have hf : c.records.length = 8 := by have := h.1; omega
    obtain ⟨b, r, a, he, hr, _, hm⟩ := CaptureStore.makeRoom_full h hf
    refine ⟨?_, ?_, ?_⟩
    · rw [hm]; rw [he] at hf; simp at hf ⊢; omega
    · rw [hm, he]; simp
    · simp [CaptureStore.pinnedCount, hm, he, hr]

/-! ### Soundness -/

theorem CaptureStore.sound.make {c : CaptureStore} (h : c.sound) (entry : Fin 32) (lock : Bool) (now : Word)
    (d : DwellRecord) (l : List Companion) : (c.make entry lock now d l).1.sound := by
  obtain ⟨h1, h2, h3⟩ := CaptureStore.makeRoom_spec h
  obtain ⟨_, _, _, hid, _⟩ := CaptureStore.assignId_spec h.1
  refine ⟨?_, ?_, ?_⟩
  · simp [CaptureStore.make]; omega
  · have h4 := h.2.1
    have hc : (c.make entry lock now d l).1.pinnedCount =
        c.makeRoom.pinnedCount + if lock && decide (c.makeRoom.pinnedCount < 4) then 1 else 0 := by
      simp [CaptureStore.make, CaptureStore.pinnedCount, List.countP_cons]
    rw [hc]
    split
    · rename_i hp
      have := (Bool.and_eq_true_iff.1 hp).2
      simp only [decide_eq_true_eq] at this
      omega
    · omega
  · simp only [CaptureStore.make, List.map_cons, List.nodup_cons]
    have hs := h2.map CaptureRecord.id
    exact ⟨fun hm => hid (hs.subset hm), h.2.2.sublist hs⟩

/-- An unpin changes nothing but pinned fields, and none of them to yes. -/
theorem CaptureStore.sound.unpin {c : CaptureStore} (h : c.sound) (n : Fin 32) : (c.unpin n).sound := by
  have key : ∀ (l : List CaptureRecord) (i : Nat),
      (l.modify i fun r => { r with pinned := false }).map CaptureRecord.id = l.map CaptureRecord.id ∧
      (l.modify i fun r => { r with pinned := false }).countP CaptureRecord.pinned ≤ l.countP CaptureRecord.pinned := by
    intro l
    induction l with
    | nil => intro i; simp
    | cons a l ih =>
      intro i
      cases i with
      | zero =>
        refine ⟨by simp, ?_⟩
        simp only [List.modify_zero_cons, List.countP_cons]
        cases a.pinned <;> simp
      | succ i =>
        obtain ⟨h1, h2⟩ := ih i
        refine ⟨by simp [h1], ?_⟩
        simp only [List.modify_succ_cons, List.countP_cons]
        omega
  obtain ⟨h1, h2, h3⟩ := h
  obtain ⟨k1, k2⟩ := key c.records.reverse (c.records.reverse.findIdx fun r => r.entry == n && r.pinned)
  refine ⟨?_, ?_, ?_⟩
  · simpa [CaptureStore.unpin] using h1
  · simp only [CaptureStore.pinnedCount, CaptureStore.unpin, List.countP_reverse] at *
    omega
  · simp only [CaptureStore.unpin, List.map_reverse] at *
    rw [k1]
    simpa using h3

theorem CaptureStore.sound.drop {c : CaptureStore} (h : c.sound) :
    ({ c with records := c.records.filter CaptureRecord.pinned } : CaptureStore).sound := by
  obtain ⟨h1, h2, h3⟩ := h
  have hs : (c.records.filter CaptureRecord.pinned).Sublist c.records := List.filter_sublist
  exact ⟨le_trans hs.length_le h1, le_trans (hs.countP_le) h2, h3.sublist (hs.map _)⟩

theorem CaptureStore.default_sound : CaptureStore.default.sound := by
  simp [CaptureStore.sound, CaptureStore.default, CaptureStore.pinnedCount]

end Sys2Proof.Machine
end

