-- ==== Sys2Proof/Laws/Commands.lean ====
section
/-! SUPPORT. What a taken command or byte is, once: `takeCommand`, `takeWrite`, `awake`, `numberBelow`, the mask operations
on an empty mask, and the return of an entry to IDLE. The statements cite these instead of unfolding them. -/

namespace Sys2Proof.Machine

/-- A command taken at COMMAND code answers what its body answers (R168, R174). -/
theorem takeCommand_taken {s : State} (h : s.commandTaken) (body : State → Reply) :
    takeCommand body s = (body s).state.answered (body s).code (body s).detail := by
  obtain ⟨h1, h2, h3⟩ := h
  simp [takeCommand, State.writesAt, h1, h2, h3]
  rfl

/-- A byte taken at a register has the register's effect and is acknowledged (R168). -/
theorem takeWrite_taken {s : State} {a : Byte} (h : s.byteTakenAt a) (f : State → State) :
    takeWrite a f s = (f s).acknowledged := by
  obtain ⟨h1, h2, h3⟩ := h
  simp [takeWrite, State.writesAt, h1, h2, h3]
  rfl

/-- Where no byte is taken at COMMAND code there is no command (log 11). -/
theorem takeCommand_not {s : State} (h : ¬s.commandTaken) (body : State → Reply) : takeCommand body s = s := by
  unfold takeCommand
  rw [if_neg]
  intro e
  apply h
  simpa [State.writesAt, State.commandTaken, and_assoc] using e

/-- Where no byte is taken at the register nothing is written (log 11). -/
theorem takeWrite_not {s : State} {a : Byte} (h : ¬s.byteTakenAt a) (f : State → State) : takeWrite a f s = s := by
  unfold takeWrite
  rw [if_neg]
  intro e
  apply h
  simpa [State.writesAt, State.byteTakenAt, and_assoc] using e

/-- Out of reset a block's step acts (R182). -/
theorem awake_of {s : State} (h : s.inReset = false) (f : State → State) : awake f s = f s := by simp [awake, h]

/-- In reset it does not (R182). -/
theorem awake_inReset {s : State} (h : s.inReset = true) (f : State → State) : awake f s = s := by simp [awake, h]

theorem numberBelow_none {n : Nat} {b : Byte} (h : n ≤ b.toNat) : numberBelow n b = none := by
  simp only [numberBelow]
  rw [dif_neg (by omega)]

theorem numberBelow_some {n : Nat} {b : Byte} {i : Fin n} (h : b.toNat = i.val) : numberBelow n b = some i := by
  simp only [numberBelow]
  rw [dif_pos (by omega)]
  congr 1
  exact Fin.ext h

theorem numberBelow_eq_some {n : Nat} {b : Byte} {i : Fin n} : numberBelow n b = some i ↔ b.toNat = i.val := by
  constructor
  · intro h
    unfold numberBelow at h
    split at h
    · simp only [Option.some.injEq] at h
      rw [← h]
    · simp at h
  · exact numberBelow_some

/-- A holder that joins no switch changes nothing. -/
theorem State.joinMask_zero (s : State) (h : Holder) : s.joinMask h 0 = s := by
  simp [State.joinMask, State.mapSwitches]

/-- A holder that leaves no switch changes nothing. -/
theorem State.leaveMask_zero (s : State) (h : Holder) : s.leaveMask h 0 = s := by
  simp [State.leaveMask, State.mapSwitches]

/-- The test for an empty mask spares a message and changes nothing (R32). -/
theorem State.joinMask_ite (s : State) (h : Holder) (m : Byte) :
    (if m = 0 then s else s.joinMask h m) = s.joinMask h m := by
  split
  · rename_i e
    rw [e, s.joinMask_zero]
  · rfl

/-- The return of an entry to IDLE as one update (R38, R46). -/
theorem State.recover_eq (s : State) (n : Fin 32) (c : RecoverCause) : s.recover n c = s.returned n c.code := by
  simp only [State.recover, State.letGo, State.postRecovered, State.returned]
  split
  · rename_i h
    have h : s.entries[n.val].config.mask = 0 := h
    simp [State.modEntry, Entry.rest, h]
  · congr 1
    simp [State.modEntry, Entry.rest]

/-- A slot names an entry exactly where `slotNaming` finds one (R14, R139). -/
theorem FaultMemory.slotNaming_isSome (f : FaultMemory) (n : Fin 32) :
    (f.slotNaming n).isSome = true ↔ ∃ k : Fin 4, f.slots[k].names = some n := by
  simp [FaultMemory.slotNaming, FaultMemory.findSlot]

/-- Where a header and an erase mark stand on the medium, the restore names an entry, and nowhere else (R148). -/
theorem SlotMedium.restored_names_iff (d : SlotMedium) (n : Fin 32) :
    d.restored.names = some n ↔ d.mark = .blank ∧ ∃ h, d.header = .whole h ∧ h.entry = n := by
  obtain ⟨header, body, mark⟩ := d
  cases mark <;> cases header <;> cases body <;> simp [SlotMedium.restored, SlotView.names]

/-- What a written configuration comes into force as: as written with operation NONE, and with another of the six where it
passes the check; the default otherwise (R121; log 12). -/
theorem DerivedWritten.checked_eq (w : DerivedWritten) : w.checked =
    match [DerivedOp.none, .sum, .difference, .product, .maxOf, .minOf][w.op.toNat]? with
    | none => DerivedConfig.default
    | some op =>
      if op = .none ∨ (w.a.toNat ≤ 17 ∧ w.b.toNat ≤ 17 ∧ w.weight.toNat ≤ 7) then
        { op := op, a := w.a, b := w.b, weight := w.weight }
      else DerivedConfig.default := by
  unfold DerivedWritten.checked DerivedOp.ofByte
  generalize w.op.toNat = n
  match n with
  | 0 => simp
  | 1 | 2 | 3 | 4 | 5 => simp; split <;> split <;> first | rfl | omega
  | n + 6 => rfl

/-- The detail of SEQ_DOWN_DONE is the cause's code with its number above it (R175). -/
theorem DownCause.detail_eq (c : DownCause) : c.detail = match c with
    | .host => 0x0001
    | .entry n => BitVec.ofNat 16 (256 * n.val + 2)
    | .ramp j => BitVec.ofNat 16 (256 * j.val + 3)
    | .timeout j => BitVec.ofNat 16 (256 * j + 4) := by
  cases c with
  | host => rfl
  | entry n => revert n; decide
  | ramp j => revert j; decide
  | timeout j =>
    apply BitVec.eq_of_toNat_eq
    change (BitVec.ofNat 8 j ++ (4 : BitVec 8)).toNat = _
    rw [BitVec.toNat_append, ← Nat.shiftLeft_add_eq_or_of_lt (by decide), Nat.shiftLeft_eq]
    simp
    omega

/-- The Scan Unit is quiet exactly in STOPPED mode with no frame in progress (R108). -/
theorem ScanUnit.quiet_iff (u : ScanUnit) : u.quiet = true ↔ u.mode = .stopped ∧ u.scanning = false := by
  simp [ScanUnit.quiet]

/-- A sequence is in progress or the board is up exactly with the codes 2, 3 and 4 (R73, R185). -/
theorem SeqState.busy_iff (x : SeqState) : x.busy = true ↔ x.code = 2 ∨ x.code = 3 ∨ x.code = 4 := by
  cases x <;> simp [SeqState.busy, SeqState.code]

/-- A byte that is none of the sixteen codes is no command (R174). -/
theorem commandOfCode_badCommand {code : Byte} (h : isCommandCode code = false) (service : Bool) :
    commandOfCode service code = .badCommand code := by
  simp only [isCommandCode, bne_eq_false_iff_eq] at h
  unfold commandOfCode at h ⊢
  split at h <;> simp_all

/-- Messages wait as they are through a step that changes no switch (R56). -/
@[simp] theorem Message.after_self (s : State) (m : Message) : m.after s s = m := by
  cases m <;> simp [Message.after, Decidable.em]

/-- A switch that stands outside RAMPING after a message keeps its good check, whatever the message was (R56). -/
theorem Message.after_watch {t : State} {i : Fin 8} (s : State) (h : t.switches[i].state ≠ .ramping) (ch : Fin 18)
    (good : Bool) : (Message.watch ch i good).after s t = .watch ch i good := by
  have h : t.switches[i.val].state ≠ .ramping := h
  simp [Message.after, h]

end Sys2Proof.Machine
end

