-- ==== Sys2Proof/Laws/Holds.lean ====
section
/-! SUPPORT. What demand, joins, leaves and the ramp do to one switch: the hold set after each, the fields they leave, and
that each keeps a legal switch legal. -/

namespace Sys2Proof.Machine

/-! ### Holders and hold sets -/

theorem Holder.index_lt (h : Holder) : h.index < 37 := by
  cases h <;> simp [Holder.index] <;> omega

theorem Holder.index_inj {h h' : Holder} : h.index = h'.index ↔ h = h' := by
  cases h <;> cases h' <;> simp [Holder.index, Fin.ext_iff] <;> omega

theorem Holder.getLsbD_mark (h : Holder) (i : Nat) : h.mark.getLsbD i = decide (i = h.index) := by
  have hi := h.index_lt
  simp only [Holder.mark, BitVec.getLsbD_shiftLeft, BitVec.getLsbD_one]
  by_cases e : i = h.index
  · subst e; simp [hi]
  · simp only [e, decide_false, Bool.and_eq_false_iff, Bool.not_eq_false', decide_eq_true_eq]
    by_cases hl : i < h.index
    · simp [hl]
    · have : i - h.index ≠ 0 := by omega
      simp [this]

/-- The members of a hold set after a join (R65). -/
theorem HoldSet.has_or (set : HoldSet) (h h' : Holder) :
    HoldSet.has (set ||| h.mark) h' = (set.has h' || decide (h' = h)) := by
  simp [HoldSet.has, Holder.getLsbD_mark, Holder.index_inj]

/-- The members of a hold set after a leave (R65). -/
theorem HoldSet.has_andNot (set : HoldSet) (h h' : Holder) :
    HoldSet.has (set &&& ~~~h.mark) h' = (set.has h' && !decide (h' = h)) := by
  simp only [HoldSet.has, BitVec.getLsbD_and, BitVec.getLsbD_not, Holder.getLsbD_mark, Holder.index_inj,
    Holder.index_lt, decide_true, Bool.true_and]

@[simp] theorem HoldSet.has_zero (h : Holder) : HoldSet.has 0 h = false := by simp [HoldSet.has]

theorem HoldSet.or_mark_ne_zero (set : HoldSet) (h : Holder) : set ||| h.mark ≠ 0 := by
  intro e
  have := HoldSet.has_or set h h
  rw [e, HoldSet.has_zero] at this
  simp at this

/-! ### The fields each operation leaves -/

@[simp] theorem Switch.becomeHeld_holds (w : Switch) : w.becomeHeld.holds = w.holds := by
  unfold Switch.becomeHeld Switch.enter; split <;> rfl
@[simp] theorem Switch.becomeHeld_config (w : Switch) : w.becomeHeld.config = w.config := by
  unfold Switch.becomeHeld Switch.enter; split <;> rfl
@[simp] theorem Switch.becomeHeld_demand (w : Switch) : w.becomeHeld.demand = w.demand := by
  unfold Switch.becomeHeld Switch.enter; split <;> rfl
@[simp] theorem Switch.becomeHeld_discharged (w : Switch) : w.becomeHeld.discharged = w.discharged := by
  unfold Switch.becomeHeld Switch.enter; split <;> rfl

@[simp] theorem Switch.becomeFree_holds (w : Switch) : w.becomeFree.holds = w.holds := by
  unfold Switch.becomeFree Switch.enter Switch.startRamp; split <;> (try split) <;> rfl
@[simp] theorem Switch.becomeFree_config (w : Switch) : w.becomeFree.config = w.config := by
  unfold Switch.becomeFree Switch.enter Switch.startRamp; split <;> (try split) <;> rfl
@[simp] theorem Switch.becomeFree_demand (w : Switch) : w.becomeFree.demand = w.demand := by
  unfold Switch.becomeFree Switch.enter Switch.startRamp; split <;> (try split) <;> rfl
@[simp] theorem Switch.becomeFree_discharged (w : Switch) : w.becomeFree.discharged = w.discharged := by
  unfold Switch.becomeFree Switch.enter Switch.startRamp; split <;> (try split) <;> rfl

@[simp] theorem Switch.join_holds (w : Switch) (h : Holder) : (w.join h).holds = w.holds ||| h.mark := by
  unfold Switch.join; simp only; split <;> simp
@[simp] theorem Switch.join_config (w : Switch) (h : Holder) : (w.join h).config = w.config := by
  unfold Switch.join; simp only; split <;> simp
@[simp] theorem Switch.join_demand (w : Switch) (h : Holder) : (w.join h).demand = w.demand := by
  unfold Switch.join; simp only; split <;> simp
@[simp] theorem Switch.join_discharged (w : Switch) (h : Holder) : (w.join h).discharged = w.discharged := by
  unfold Switch.join; simp only; split <;> simp

@[simp] theorem Switch.leave_holds (w : Switch) (h : Holder) : (w.leave h).holds = w.holds &&& ~~~h.mark := by
  unfold Switch.leave; simp only; split <;> simp
@[simp] theorem Switch.leave_config (w : Switch) (h : Holder) : (w.leave h).config = w.config := by
  unfold Switch.leave; simp only; split <;> simp
@[simp] theorem Switch.leave_demand (w : Switch) (h : Holder) : (w.leave h).demand = w.demand := by
  unfold Switch.leave; simp only; split <;> simp
@[simp] theorem Switch.leave_discharged (w : Switch) (h : Holder) : (w.leave h).discharged = w.discharged := by
  unfold Switch.leave; simp only; split <;> simp

@[simp] theorem Switch.takeDemand_holds (w : Switch) (on : Bool) : (w.takeDemand on).holds = w.holds := by
  unfold Switch.takeDemand Switch.enter Switch.startRamp; simp only; split <;> (try split) <;> (try split) <;>
    (try split) <;> rfl
@[simp] theorem Switch.takeDemand_config (w : Switch) (on : Bool) : (w.takeDemand on).config = w.config := by
  unfold Switch.takeDemand Switch.enter Switch.startRamp; simp only; split <;> (try split) <;> (try split) <;>
    (try split) <;> rfl
@[simp] theorem Switch.takeDemand_discharged (w : Switch) (on : Bool) :
    (w.takeDemand on).discharged = w.discharged := by
  unfold Switch.takeDemand Switch.enter Switch.startRamp; simp only; split <;> (try split) <;> (try split) <;>
    (try split) <;> rfl
@[simp] theorem Switch.takeDemand_demand (w : Switch) (on : Bool) : (w.takeDemand on).demand = on := by
  unfold Switch.takeDemand Switch.enter Switch.startRamp
  by_cases h : w.demand = on
  · simp [h]
  · simp only [h, if_false]; split <;> (try split) <;> (try split) <;> simp_all

/-! ### Legality -/

theorem Switch.legal.join {w : Switch} (hw : w.legal) (h : Holder) : (w.join h).legal := by
  obtain ⟨h1, h2, h3, h4, h5⟩ := hw
  unfold Switch.join Switch.becomeHeld Switch.enter
  have hm := HoldSet.or_mark_ne_zero w.holds h
  cases hs : w.state <;> by_cases hz : w.holds = 0 <;> simp_all [Switch.legal]

theorem Switch.legal.leave {w : Switch} (hw : w.legal) (h : Holder) : (w.leave h).legal := by
  obtain ⟨h1, h2, h3, h4, h5⟩ := hw
  unfold Switch.leave Switch.becomeFree Switch.enter Switch.startRamp
  cases hs : w.state <;> by_cases hz : w.holds = 0 <;> by_cases hv : w.holds &&& ~~~h.mark = 0 <;>
    cases hm : w.config.isManual <;> simp_all [Switch.legal]

theorem Switch.legal.takeDemand {w : Switch} (hw : w.legal) (on : Bool) : (w.takeDemand on).legal := by
  obtain ⟨h1, h2, h3, h4, h5⟩ := hw
  unfold Switch.takeDemand Switch.enter Switch.startRamp
  cases on <;> cases hd : w.demand <;> cases hs : w.state <;> by_cases hz : w.holds = 0 <;> simp_all [Switch.legal]

theorem Switch.legal.restart {w : Switch} (hw : w.legal) (h : w.state = .tripped ∨ w.state = .failed) :
    w.restart.legal := by
  obtain ⟨h1, h2, h3, h4, h5⟩ := hw
  unfold Switch.restart Switch.enter Switch.startRamp
  rcases h with hs | hs <;> by_cases hz : w.holds = 0 <;> simp_all [Switch.legal]

theorem Switch.legal.on {w : Switch} (hw : w.legal) (h : w.state = .ramping) : (w.enter .on).legal := by
  obtain ⟨h1, h2, h3, h4, h5⟩ := hw
  simp_all [Switch.legal, Switch.enter]

theorem Switch.legal.failed {w : Switch} (hw : w.legal) (h : w.state = .ramping) : (w.enter .failed).legal := by
  obtain ⟨h1, h2, h3, h4, h5⟩ := hw
  simp_all [Switch.legal, Switch.enter]

theorem Switch.legal.discharged {w : Switch} (hw : w.legal) (v : Bool) : ({ w with discharged := v } : Switch).legal :=
  hw

theorem Switch.legal.loaded {w : Switch} (hw : w.legal) (h : w.state = .off) (c : SwitchConfig) (x : Bool) :
    (w.loaded c x).legal := by
  obtain ⟨h1, h2, h3, h4, h5⟩ := hw
  simp_all [Switch.legal, Switch.loaded]

theorem Switch.legal.tick {w : Switch} (hw : w.legal) : w.tick.legal := by
  obtain ⟨h1, h2, h3, h4, h5⟩ := hw
  simp_all [Switch.legal, Switch.tick, Timer.tick]

theorem Switch.default_legal : Switch.default.legal := by
  simp [Switch.legal, Switch.default]

/-- A legal switch's gate is energised only while the switch is demanded and unheld (R55). -/
theorem Switch.legal.gate {w : Switch} (hw : w.legal) (h : w.state.energised = true) : w.demand = true ∧ w.holds = 0 := by
  obtain ⟨h1, h2, h3, h4, h5⟩ := hw
  cases hs : w.state <;> cases hd : w.demand <;> simp_all [SwitchState.energised]

end Sys2Proof.Machine
end

