-- ==== Sys2Proof/Laws/Keeps.lean ====
section
/-! SUPPORT. `Keeps s t`: the passage from `s` to `t` keeps every invariant of Sys2Proof/Safety.lean that one message at a
time keeps (the agreement of the stored locks in a ready part), and leaves alone what only whole commands move. Each shared operation has one lemma that says so here or in
Sys2Proof/Laws/Messages.lean, so that no later proof unfolds the operation. -/

namespace Sys2Proof.Machine

/-- What the passage keeps, the demands of the Sequencer aside. -/
structure KeepsBase (s t : State) : Prop where
  inReset : t.inReset = s.inReset
  ready : t.ready = s.ready
  pending : t.pending = s.pending
  restore : t.fault.restore = s.fault.restore
  switches : s.switchesLegal → t.switchesLegal
  entries : s.entriesLegal → t.entriesLegal
  eHolders : s.eHoldersExact → t.eHoldersExact
  xHolder : s.xHolderExact → t.xHolderExact
  kHolders : s.kHoldersExact → t.kHoldersExact
  queue : s.queue.sound → t.queue.sound
  captures : s.captures.sound → t.captures.sound
  lists : s.listsSound → t.listsSound
  locks : s.ready = true → s.locksAgree → t.locksAgree

/-- What the passage keeps, the demands of the Sequencer with it. -/
structure Keeps (s t : State) : Prop extends KeepsBase s t where
  demands : s.demandsFollow → t.demandsFollow

theorem KeepsBase.refl (s : State) : KeepsBase s s :=
  ⟨rfl, rfl, rfl, rfl, id, id, id, id, id, id, id, id, fun _ => id⟩

theorem Keeps.refl (s : State) : Keeps s s := ⟨KeepsBase.refl s, id⟩

theorem KeepsBase.trans {s t u : State} (a : KeepsBase s t) (b : KeepsBase t u) : KeepsBase s u where
  inReset := b.inReset.trans a.inReset
  ready := b.ready.trans a.ready
  pending := b.pending.trans a.pending
  restore := b.restore.trans a.restore
  switches := b.switches ∘ a.switches
  entries := b.entries ∘ a.entries
  eHolders := b.eHolders ∘ a.eHolders
  xHolder := b.xHolder ∘ a.xHolder
  kHolders := b.kHolders ∘ a.kHolders
  queue := b.queue ∘ a.queue
  captures := b.captures ∘ a.captures
  lists := b.lists ∘ a.lists
  locks := fun h => b.locks (a.ready.trans h) ∘ a.locks h

theorem Keeps.trans {s t u : State} (a : Keeps s t) (b : Keeps t u) : Keeps s u :=
  ⟨a.toKeepsBase.trans b.toKeepsBase, b.demands ∘ a.demands⟩

/-- A fold of operations that each keep keeps. -/
theorem Keeps.foldl {α : Type} {f : State → α → State} (h : ∀ s x, Keeps s (f s x)) (l : List α) (s : State) :
    Keeps s (l.foldl f s) := by
  induction l generalizing s with
  | nil => exact .refl s
  | cons a l ih => exact (h s a).trans (ih _)

/-! ### Passages that move a few fields -/

/-- Nothing moves but fields that no invariant of `Keeps` reads. -/
theorem Keeps.other {s t : State}
    (h : t = { s with
      timestamp := t.timestamp, entryStaging := t.entryStaging, switchStaging := t.switchStaging, scan := t.scan
      records := t.records, derivedWritten := t.derivedWritten, derivedInForce := t.derivedInForce, port := t.port
      choice := t.choice }) : Keeps s t := by
  rw [h]
  exact ⟨⟨rfl, rfl, rfl, rfl, id, id, id, id, id, id, id, id, fun _ => id⟩, id⟩

/-- Only the queue moves, and stays sound. -/
theorem Keeps.queueOnly {s : State} {q : EventQueue} (h : s.queue.sound → q.sound) :
    Keeps s { s with queue := q } :=
  ⟨⟨rfl, rfl, rfl, rfl, id, id, id, id, id, h, id, id, fun _ => id⟩, id⟩

/-- A posted event (R155). -/
theorem Keeps.post (s : State) (k : EventKind) (o : Option Nat) (d : Half) (c : Fin 4) : Keeps s (s.post k o d c) :=
  .queueOnly fun h => h.arrive _

/-- Only the Capture Store moves, and stays sound. -/
theorem Keeps.capturesOnly {s : State} {c : CaptureStore} (h : s.captures.sound → c.sound) :
    Keeps s { s with captures := c } :=
  ⟨⟨rfl, rfl, rfl, rfl, id, id, id, id, id, id, h, id, fun _ => id⟩, id⟩

theorem Keeps.unpin (s : State) (n : Fin 32) : Keeps s (s.unpin n) := .capturesOnly fun h => h.unpin n

theorem Keeps.draw (s : State) (f : Nat → Nat) (n : Nat) : Keeps s (s.draw f n).2 := .other rfl

/-- The hold mask of a slot's K-holder (R67). -/
def SlotView.holdMask (v : SlotView) : Byte :=
  match v with
  | .valid h _ => h.mask
  | .erasing h _ => h.mask
  | .empty _ => 0
  | .writing _ _ _ _ => 0

theorem State.kHoldersExact_iff (s : State) : s.kHoldersExact ↔
    ∀ (i : Fin 8) (k : Fin 4), s.switches[i].holds.has (.k k) = s.fault.slots[k].holdMask.getLsbD i.val := by
  unfold State.kHoldersExact SlotView.holdMask
  refine forall_congr' fun i => forall_congr' fun k => ?_
  split <;> simp_all

/-- Only the messages on their way to the Sequencer move. -/
theorem Keeps.failedOnly (s : State) (l : List (Fin 8)) : Keeps s { s with seq := { s.seq with failed := l } } :=
  ⟨⟨rfl, rfl, rfl, rfl, id, id, id, id, id, id, id, id, fun _ => id⟩, id⟩

/-- Only Fault Memory moves: the K-holders' masks stay, and the slots go on agreeing. -/
theorem Keeps.faultOnly {s : State} {f : FaultMemory} (hr : f.restore = s.fault.restore)
    (hk : ∀ k : Fin 4, f.slots[k].holdMask = s.fault.slots[k].holdMask)
    (hl : s.ready = true → s.locksAgree → ({ s with fault := f } : State).locksAgree) : Keeps s { s with fault := f } := by
  refine ⟨⟨rfl, rfl, rfl, hr, id, id, id, id, ?_, id, id, id, hl⟩, id⟩
  rw [State.kHoldersExact_iff, State.kHoldersExact_iff]
  intro h i k
  rw [h i k]
  exact congrArg (fun m : Byte => m.getLsbD i.val) (hk k).symm

/-- Only switches and the Sequencer move, and the queue: configurations and hold sets stay, the lists in force stay. -/
theorem KeepsBase.switchSeq {s t : State}
    (ht : t = { s with switches := t.switches, seq := t.seq, queue := t.queue })
    (hu : t.seq.upList = s.seq.upList) (hd : t.seq.downList = s.seq.downList)
    (hw : ∀ i : Fin 8, t.switches[i].config = s.switches[i].config ∧ t.switches[i].holds = s.switches[i].holds ∧
      (s.switches[i].legal → t.switches[i].legal))
    (hq : s.queue.sound → t.queue.sound) : KeepsBase s t := by
  have he : t.entries = s.entries := by rw [ht]
  have hf : t.fault = s.fault := by rw [ht]
  have hp : t.trip = s.trip := by rw [ht]
  have hy : t.ready = s.ready := by rw [ht]
  refine ⟨by rw [ht], hy, by rw [ht], by rw [hf], ?_, ?_, ?_, ?_, ?_, hq, ?_, ?_, ?_⟩
  · exact fun h i => (hw i).2.2 (h i)
  · intro h n; rw [he]; exact h n
  · intro h i n; rw [he, (hw i).2.1]; exact h i n
  · intro h i; rw [hp, (hw i).1, (hw i).2.1]; exact h i
  · intro h i k; rw [hf, (hw i).2.1]; exact h i k
  · intro h; rw [ht]; exact h
  · rintro ⟨h1, h2, h3, h4, h5⟩
    exact ⟨by rw [hu]; exact h1, by rw [hd]; exact h2, by rw [hu, hd]; exact h3,
      by rw [hd]; exact fun i hi => by rw [(hw i).1]; exact h4 i hi, by rw [hu, hd]; exact h5⟩
  · intro _ h
    unfold State.locksAgree
    rw [hf, hy]
    exact h

/-! ### Entries and their holders -/

/-- The switches after entry `n`'s holder joins a mask. -/
theorem State.eHolders_join {s : State} {n : Fin 32} {e : Entry} (h : s.eHoldersExact)
    (hold : s.entries[n].state.active = false) (hnew : e.state.active = true) :
    ({ s with entries := s.entries.set n e }.joinMask (.e n) e.config.mask).eHoldersExact := by
  intro i m
  have hi := h i m
  simp only [State.joinMask_switches, State.joinMask_entries, Fin.getElem_fin, Vector.getElem_ofFn,
    Vector.getElem_set] at *
  by_cases hm : m = n
  · subst hm
    simp only [hold, Bool.false_and] at hi
    by_cases hb : e.config.mask.getLsbD i.val
    · simp only [hb, if_true, Switch.join_holds, HoldSet.has_or, hi, hnew]; simp
    · simp only [hb, Bool.false_eq_true, if_false, if_true, hnew]; simpa using hi
  · have hne : ¬n.val = m.val := fun e => hm (Fin.ext e.symm)
    by_cases hb : e.config.mask.getLsbD i.val
    · simp only [hb, if_true, Switch.join_holds, HoldSet.has_or, hi, hne, if_false]; simp [hm]
    · simp only [hb, Bool.false_eq_true, if_false, hne]; exact hi

/-- The switches after entry `n`'s holder leaves its mask. -/
theorem State.eHolders_leave {s : State} {n : Fin 32} {e : Entry} (h : s.eHoldersExact)
    (hold : s.entries[n].state.active = true) (hnew : e.state.active = false) :
    ({ s with entries := s.entries.set n e }.leaveMask (.e n) s.entries[n].config.mask).eHoldersExact := by
  intro i m
  have hi := h i m
  simp only [State.leaveMask_switches, State.leaveMask_entries, Fin.getElem_fin, Vector.getElem_ofFn,
    Vector.getElem_set] at *
  by_cases hm : m = n
  · subst hm
    simp only [hold, Bool.true_and] at hi
    by_cases hb : s.entries[m.val].config.mask.getLsbD i.val
    · simp only [hb, if_true, Switch.leave_holds, HoldSet.has_andNot, hi, hnew]; simp
    · simp only [hb, Bool.false_eq_true, if_false, if_true, hnew]; rw [hi]; simpa using hb
  · have hne : ¬n.val = m.val := fun e => hm (Fin.ext e.symm)
    by_cases hb : s.entries[n.val].config.mask.getLsbD i.val
    · simp only [hb, if_true, Switch.leave_holds, HoldSet.has_andNot, hi, hne, if_false]; simp [hm]
    · simp only [hb, Bool.false_eq_true, if_false, hne]; exact hi

/-- Joins and leaves of a holder move no other field, and of the switches neither configuration, demand nor indicator. -/
theorem KeepsBase.ofHolders {s t : State} (ht : t = { s with switches := t.switches, entries := t.entries })
    (hw : ∀ i : Fin 8, t.switches[i].config = s.switches[i].config ∧ (s.switches[i].legal → t.switches[i].legal))
    (he : s.entriesLegal → t.entriesLegal) (hE : s.eHoldersExact → t.eHoldersExact)
    (hx : ∀ i : Fin 8, t.switches[i].holds.has .x = s.switches[i].holds.has .x)
    (hk : ∀ (i : Fin 8) (k : Fin 4), t.switches[i].holds.has (.k k) = s.switches[i].holds.has (.k k)) :
    KeepsBase s t := by
  have hf : t.fault = s.fault := by rw [ht]
  have hp : t.trip = s.trip := by rw [ht]
  have hs : t.seq = s.seq := by rw [ht]
  have hy : t.ready = s.ready := by rw [ht]
  refine ⟨by rw [ht], hy, by rw [ht], by rw [hf], fun h i => (hw i).2 (h i), he, hE, ?_, ?_, ?_, ?_, ?_, ?_⟩
  · intro h i; rw [hx, hp, (hw i).1]; exact h i
  · intro h i k; rw [hk, hf]; exact h i k
  · intro h; rw [ht]; exact h
  · intro h; rw [ht]; exact h
  · rintro ⟨h1, h2, h3, h4, h5⟩
    exact ⟨by rw [hs]; exact h1, by rw [hs]; exact h2, by rw [hs]; exact h3,
      by rw [hs]; exact fun i hi => by rw [(hw i).1]; exact h4 i hi, by rw [hs]; exact h5⟩
  · intro _ h; unfold State.locksAgree; rw [hf, hy]; exact h

/-- Demands follow still where neither they nor the Sequencer move. -/
theorem State.demandsFollow_of {s t : State} (hs : t.seq = s.seq)
    (hw : ∀ i : Fin 8, t.switches[i].demand = s.switches[i].demand) (h : s.demandsFollow) : t.demandsFollow := by
  refine ⟨by rw [hs]; exact h.1, ?_⟩
  intro i hi
  rw [hs]
  exact h.2 i (by rw [← hw i]; exact hi)

/-- Entry `n` becomes active and its holder joins its mask (R32). -/
theorem Keeps.activate {s : State} {n : Fin 32} {e : Entry} (hold : s.entries[n].state.active = false)
    (hnew : e.state.active = true) (hl : s.entries[n].legal → e.legal) :
    Keeps s ({ s with entries := s.entries.set n e }.joinMask (.e n) e.config.mask) := by
  refine ⟨KeepsBase.ofHolders rfl ?_ ?_ (fun h => State.eHolders_join h hold hnew) ?_ ?_, ?_⟩
  · intro i
    simp only [State.joinMask_switches, Fin.getElem_fin, Vector.getElem_ofFn]
    split
    · exact ⟨by simp, fun h => h.join _⟩
    · exact ⟨rfl, id⟩
  · intro h m
    simp only [State.joinMask_entries, Fin.getElem_fin, Vector.getElem_set]
    split
    · exact hl (h n)
    · exact h m
  · intro i
    simp only [State.joinMask_switches, Fin.getElem_fin, Vector.getElem_ofFn]
    split
    · simp [HoldSet.has_or]
    · rfl
  · intro i k
    simp only [State.joinMask_switches, Fin.getElem_fin, Vector.getElem_ofFn]
    split
    · simp [HoldSet.has_or]
    · rfl
  · refine State.demandsFollow_of rfl ?_
    intro i
    simp only [State.joinMask_switches, Fin.getElem_fin, Vector.getElem_ofFn]
    split <;> simp

/-- Active entry `n` goes inactive and its holder leaves its mask (R32). -/
theorem Keeps.deactivate {s : State} {n : Fin 32} {e : Entry} (hold : s.entries[n].state.active = true)
    (hnew : e.state.active = false) (hl : s.entries[n].legal → e.legal) :
    Keeps s ({ s with entries := s.entries.set n e }.leaveMask (.e n) s.entries[n].config.mask) := by
  refine ⟨KeepsBase.ofHolders rfl ?_ ?_ (fun h => State.eHolders_leave h hold hnew) ?_ ?_, ?_⟩
  · intro i
    simp only [State.leaveMask_switches, Fin.getElem_fin, Vector.getElem_ofFn]
    split
    · exact ⟨by simp, fun h => h.leave _⟩
    · exact ⟨rfl, id⟩
  · intro h m
    simp only [State.leaveMask_entries, Fin.getElem_fin, Vector.getElem_set]
    split
    · exact hl (h n)
    · exact h m
  · intro i
    simp only [State.leaveMask_switches, Fin.getElem_fin, Vector.getElem_ofFn]
    split
    · simp [HoldSet.has_andNot]
    · rfl
  · intro i k
    simp only [State.leaveMask_switches, Fin.getElem_fin, Vector.getElem_ofFn]
    split
    · simp [HoldSet.has_andNot]
    · rfl
  · refine State.demandsFollow_of rfl ?_
    intro i
    simp only [State.leaveMask_switches, Fin.getElem_fin, Vector.getElem_ofFn]
    split <;> simp

/-- Entry `n` moves without becoming active or inactive, or while inactive. -/
theorem Keeps.entryOnly {s : State} {n : Fin 32} {e : Entry} (hl : s.entries[n].legal → e.legal)
    (ha : (e.state.active = false ∧ s.entries[n].state.active = false) ∨
      (e.state.active = s.entries[n].state.active ∧ e.config.mask = s.entries[n].config.mask)) :
    Keeps s { s with entries := s.entries.set n e } := by
  refine ⟨KeepsBase.ofHolders rfl (fun i => ⟨rfl, id⟩) ?_ ?_ (fun i => rfl) (fun i k => rfl), id⟩
  · intro h m
    simp only [Fin.getElem_fin, Vector.getElem_set]
    split
    · exact hl (h n)
    · exact h m
  · intro h i m
    have hi := h i m
    simp only [Fin.getElem_fin, Vector.getElem_set] at *
    split
    · rename_i hm
      have : m = n := Fin.ext hm.symm
      subst this
      rcases ha with ⟨h1, h2⟩ | ⟨h1, h2⟩
      · rw [hi, h1, h2]; simp
      · rw [hi, h1, h2]
    · exact hi

end Sys2Proof.Machine
end

