-- ==== Sys2Proof/Laws/LockRequests.lean ====
section
/-! SUPPORT. What a lock request does to Fault Memory, once: the work list, the next item's start, and that the
controller's view goes on agreeing with the medium. -/

namespace Sys2Proof.Machine

/-- Agreement of a slot reads its view, its item, its medium and its phase, and nothing else. -/
theorem FaultMemory.slotAgrees_congr {f g : FaultMemory} {k : Fin 4} (hs : g.slots[k] = f.slots[k])
    (hi : g.itemKind k = f.itemKind k) (hm : g.medium[k] = f.medium[k]) (hp : g.phaseOf k = f.phaseOf k)
    (h : f.slotAgrees k) : g.slotAgrees k := by
  unfold FaultMemory.slotAgrees at *
  rw [hs, hi, hm, hp]
  exact h

/-! ### Items -/

/-- The item of a slot after one more joins the tail. -/
theorem itemKind_append {f : FaultMemory} {i : WorkItem} {k : Fin 4} (hk : i.slot ≠ k) :
    ({ f with work := f.work ++ [i] } : FaultMemory).itemKind k = f.itemKind k := by
  simp [FaultMemory.itemKind, List.find?_append, hk]

/-- A slot without an item has the one that joins the tail. -/
theorem itemKind_append_self {f : FaultMemory} {i : WorkItem} (h : f.itemKind i.slot = none) :
    ({ f with work := f.work ++ [i] } : FaultMemory).itemKind i.slot = some i.kind := by
  simp only [FaultMemory.itemKind, Option.map_eq_none_iff] at h
  simp [FaultMemory.itemKind, List.find?_append, h]

/-- A slot has no item exactly where no item of the work list names it. -/
theorem itemKind_eq_none {f : FaultMemory} {k : Fin 4} :
    f.itemKind k = none ↔ k ∉ f.work.map WorkItem.slot := by
  simp [FaultMemory.itemKind, List.find?_eq_none]

@[simp] theorem upgradeItem_slot (k : Fin 4) (i : WorkItem) : (upgradeItem k i).slot = i.slot := by
  unfold upgradeItem
  split <;> rfl

/-- The item of a slot after an upgrade (R149). -/
theorem itemKind_upgrade {f : FaultMemory} {j k : Fin 4} :
    ({ f with work := f.work.map (upgradeItem k) } : FaultMemory).itemKind j =
      (f.itemKind j).map fun x => if j = k ∧ x = .cleanup then .cleanupThenProgram else x := by
  simp only [FaultMemory.itemKind, List.find?_map, Option.map_map]
  have : ((fun i : WorkItem => i.slot == j) ∘ upgradeItem k) = fun i : WorkItem => i.slot == j := by
    funext i
    simp
  rw [this]
  cases h : f.work.find? fun i : WorkItem => i.slot == j with
  | none => rfl
  | some i =>
    have hj : i.slot = j := by simpa using List.find?_some h
    simp only [Option.map_some, Function.comp_apply, upgradeItem, hj]
    split <;> rfl

theorem phaseOf_eq_none {f : FaultMemory} {k : Fin 4} (h : k ∉ f.work.map WorkItem.slot) : f.phaseOf k = none := by
  unfold FaultMemory.phaseOf
  rw [if_neg]
  intro e
  apply h
  obtain ⟨i, hi, rfl⟩ := Option.map_eq_some_iff.1 e
  exact List.mem_map_of_mem (List.mem_of_head? hi)

/-- An item that joins the tail of a list that is not empty leaves every phase where it stands (R140). -/
theorem phaseOf_append {f : FaultMemory} {i : WorkItem} {k : Fin 4} (h : f.work ≠ []) :
    ({ f with work := f.work ++ [i] } : FaultMemory).phaseOf k = f.phaseOf k := by
  simp [FaultMemory.phaseOf, List.head?_append_of_ne_nil _ h]

/-! ### The reservation -/

/-- A slot found satisfies the test. -/
theorem FaultMemory.findSlot_some {f : FaultMemory} {p : SlotView → Bool} {k : Fin 4} (h : f.findSlot p = some k) :
    p f.slots[k] = true := by
  simpa using List.find?_some h

/-- What a lock request leaves of Fault Memory where a slot was reserved without a mark and the list was not empty, with
it or with an empty list, or with the cleanup mark (R143, R149). -/
theorem FaultMemory.reserve_cases {f : FaultMemory} {k : Fin 4} (h : f.slots[k].nonEmpty = false) (n : Fin 32)
    (mask : Byte) :
    (f.slots[k] = .empty true ∧ f.reserve k n mask = { f with
      slots := f.slots.set k (.writing n mask none (f.copyFor n)), work := f.work.map (upgradeItem k) }) ∨
    (f.slots[k] = .empty false ∧ f.work ≠ [] ∧ f.reserve k n mask = { f with
      slots := f.slots.set k (.writing n mask none (f.copyFor n))
      work := f.work ++ [{ kind := .program, slot := k }] }) ∨
    (f.slots[k] = .empty false ∧ f.work = [] ∧ f.reserve k n mask = { f with
      slots := f.slots.set k (.writing n mask (some f.serialWord.next) (f.copyFor n))
      work := [{ kind := .program, slot := k }], phase := some .serial }) := by
  have hs : f.slots[k] = .empty true ∨ f.slots[k] = .empty false := by
    revert h
    generalize f.slots[k] = v
    cases v with
    | empty c => cases c <;> simp
    | writing => simp [SlotView.nonEmpty]
    | valid => simp [SlotView.nonEmpty]
    | erasing => simp [SlotView.nonEmpty]
  rcases hs with hs | hs
  · refine .inl ⟨hs, ?_⟩
    unfold FaultMemory.reserve
    rw [hs]
    rfl
  · by_cases hw : f.work = []
    · refine .inr (.inr ⟨hs, hw, ?_⟩)
      unfold FaultMemory.reserve
      rw [hs]
      simp [FaultMemory.enqueue, FaultMemory.setSlot, hw, FaultMemory.startHead, FaultMemory.startProgram]
    · refine .inr (.inl ⟨hs, hw, ?_⟩)
      unfold FaultMemory.reserve
      rw [hs]
      simp [FaultMemory.enqueue, FaultMemory.setSlot, hw]

/-- The volatile copies are no part of the agreement. -/
theorem FaultMemory.dropCopy_eq (f : FaultMemory) (n : Fin 32) : f.dropCopy n = { f with
    copies := f.copies.eraseP fun c => c.entry == n } := rfl

/-- A reservation keeps the views in agreement with the medium (R139, R143, R149). -/
theorem FaultMemory.reserve_agrees {f : FaultMemory} {k : Fin 4} (h : f.slots[k].nonEmpty = false) (n : Fin 32)
    (mask : Byte) (hn : (f.work.map WorkItem.slot).Nodup) (hp : f.phase.isSome = true ↔ f.work ≠ [])
    (ha : ∀ j : Fin 4, f.slotAgrees j) :
    ((f.reserve k n mask).work.map WorkItem.slot).Nodup ∧
      ((f.reserve k n mask).phase.isSome = true ↔ (f.reserve k n mask).work ≠ []) ∧
      ∀ j : Fin 4, (f.reserve k n mask).slotAgrees j := by
  have hk := ha k
  rcases FaultMemory.reserve_cases h n mask with ⟨hs, e⟩ | ⟨hs, hw, e⟩ | ⟨hs, hw, e⟩
  · rw [e]
    unfold FaultMemory.slotAgrees at hk
    rw [hs] at hk
    refine ⟨?_, ?_, fun j => ?_⟩
    · rw [List.map_map]
      have : WorkItem.slot ∘ upgradeItem k = WorkItem.slot := by
        funext i
        simp
      rw [this]
      exact hn
    · simpa using hp
    · have hphase : ({ f with
          slots := f.slots.set k (.writing n mask none (f.copyFor n)), work := f.work.map (upgradeItem k) }
            : FaultMemory).phaseOf j = f.phaseOf j := by
        simp only [FaultMemory.phaseOf, List.head?_map, Option.map_map]
        have : WorkItem.slot ∘ upgradeItem k = WorkItem.slot := by
          funext i
          simp
        rw [this]
      have hitem : ({ f with
          slots := f.slots.set k (.writing n mask none (f.copyFor n)), work := f.work.map (upgradeItem k) }
            : FaultMemory).itemKind j =
            (f.itemKind j).map fun x => if j = k ∧ x = .cleanup then .cleanupThenProgram else x :=
        itemKind_upgrade (f := f)
      by_cases hjk : j = k
      · subst hjk
        unfold FaultMemory.slotAgrees
        rw [hphase, hitem, hk.1]
        simp only [Fin.getElem_fin, Vector.getElem_set_self]
        exact .inr ⟨by simp, .inl ⟨trivial, hk.2⟩⟩
      · have hne : ¬k.val = j.val := fun x => hjk (Fin.ext x.symm)
        refine FaultMemory.slotAgrees_congr (f := f) ?_ ?_ rfl hphase (ha j)
        · simp [hne]
        · rw [hitem]
          simp [hjk]
  · rw [e]
    unfold FaultMemory.slotAgrees at hk
    rw [hs] at hk
    have hnot := itemKind_eq_none.1 hk.1
    refine ⟨?_, ?_, fun j => ?_⟩
    · rw [List.map_append, List.nodup_append]
      refine ⟨hn, by simp, ?_⟩
      intro a ha b hb
      simp only [List.map_cons, List.map_nil, List.mem_singleton] at hb
      subst hb
      intro e
      exact hnot (e ▸ ha)
    · simp [hp, hw]
    · have hphase : ({ f with
          slots := f.slots.set k (.writing n mask none (f.copyFor n))
          work := f.work ++ [{ kind := .program, slot := k }] } : FaultMemory).phaseOf j = f.phaseOf j :=
        phaseOf_append (f := f) hw
      by_cases hjk : j = k
      · subst hjk
        have hitem : ({ f with
            slots := f.slots.set j (.writing n mask none (f.copyFor n))
            work := f.work ++ [{ kind := .program, slot := j }] } : FaultMemory).itemKind j = some .program :=
          itemKind_append_self (f := f) (i := { kind := .program, slot := j }) hk.1
        unfold FaultMemory.slotAgrees
        rw [hphase, hitem, phaseOf_eq_none hnot]
        simp only [Fin.getElem_fin, Vector.getElem_set_self]
        exact .inl ⟨trivial, hk.2⟩
      · have hne : ¬k.val = j.val := fun x => hjk (Fin.ext x.symm)
        refine FaultMemory.slotAgrees_congr (f := f) ?_ ?_ rfl hphase (ha j)
        · simp [hne]
        · exact itemKind_append (f := f) (i := { kind := .program, slot := k }) fun x => hjk x.symm
  · rw [e]
    unfold FaultMemory.slotAgrees at hk
    rw [hs] at hk
    refine ⟨by simp, by simp, fun j => ?_⟩
    by_cases hjk : j = k
    · subst hjk
      unfold FaultMemory.slotAgrees
      simp only [Fin.getElem_fin, Vector.getElem_set_self]
      refine .inl ⟨by simp [FaultMemory.itemKind], ?_⟩
      simp only [FaultMemory.phaseOf, List.head?_cons, Option.map_some, if_true]
      exact hk.2
    · have hne : ¬k.val = j.val := fun x => hjk (Fin.ext x.symm)
      refine FaultMemory.slotAgrees_congr (f := f) ?_ ?_ rfl ?_ (ha j)
      · simp [hne]
      · simp [FaultMemory.itemKind, hw, Ne.symm hjk]
      · simp [FaultMemory.phaseOf, hw, Ne.symm hjk]

/-- A lock request keeps (R143). -/
theorem State.lockRequest_keeps (s : State) (n : Fin 32) (mask : Byte) :
    Keeps s (s.lockRequest n mask) := by
  unfold State.lockRequest
  split
  · rename_i k hk
    have he : s.fault.slots[k].nonEmpty = false := by simpa using FaultMemory.findSlot_some hk
    refine Keeps.faultOnly ?_ ?_ ?_
    · dsimp only
      rw [FaultMemory.dropCopy_eq]
      rcases FaultMemory.reserve_cases he n mask with ⟨_, e⟩ | ⟨_, _, e⟩ | ⟨_, _, e⟩ <;> rw [e]
    · have h0 : s.fault.slots[k].holdMask = 0 := by
        revert he
        generalize s.fault.slots[k] = v
        cases v <;> simp [SlotView.nonEmpty, SlotView.holdMask]
      intro j
      dsimp only
      rw [FaultMemory.dropCopy_eq]
      rcases FaultMemory.reserve_cases he n mask with ⟨_, e⟩ | ⟨_, _, e⟩ | ⟨_, _, e⟩ <;> rw [e] <;>
        simp only [Fin.getElem_fin, Vector.getElem_set] <;> split <;> first
        | rfl
        | (rename_i hkj
           have hkj : k = j := Fin.ext hkj
           subst hkj
           exact h0.symm)
    · rintro hr ⟨h1, h2, _, h4⟩
      obtain ⟨g1, g2, g3⟩ := FaultMemory.reserve_agrees he n mask h1 (h2 hr) fun j => h4 j (.inl hr)
      refine ⟨g1, fun _ => g2, fun h => ?_, fun j _ => g3 j⟩
      exact absurd (hr.symm.trans h) (by simp)
  · refine Keeps.trans (t := s.modFault fun f => f.dropCopy n) ?_ (Keeps.post _ _ _ _ _)
    exact Keeps.faultOnly rfl (fun _ => rfl) fun _ => id

end Sys2Proof.Machine
end

