-- ==== Sys2Proof/Laws/Messages.lean ====
section
/-! SUPPORT. Each message between the blocks, once: the steps of a sequence, what switches and entries tell the Sequencer,
samples, qualifications, lettings go, loads and frames all keep what `Keeps` says. -/

namespace Sys2Proof.Machine

/-! ### The Sequencer's steps -/

/-- A demand message to one switch, with whatever the Sequencer does to its own state but its lists (R54). -/
theorem KeepsBase.demandSeq {s t : State} (i : Fin 8) (on : Bool)
    (ht : t = { s with switches := s.switches.set i (s.switches[i].takeDemand on), seq := t.seq })
    (hu : t.seq.upList = s.seq.upList) (hd : t.seq.downList = s.seq.downList) : KeepsBase s t := by
  refine KeepsBase.switchSeq (by rw [ht]) hu hd ?_ (by rw [ht]; exact id)
  intro j
  rw [ht]
  simp only [Fin.getElem_fin, Vector.getElem_set]
  split
  · rename_i e
    have e : i = j := Fin.ext e
    subst e
    simp only [Switch.takeDemand_config, Switch.takeDemand_holds, true_and]
    exact fun h => h.takeDemand on
  · exact ⟨rfl, rfl, id⟩

/-- Only the Sequencer moves, its lists aside, and the queue. -/
theorem KeepsBase.seqOnly {s t : State} (ht : t = { s with seq := t.seq, queue := t.queue })
    (hu : t.seq.upList = s.seq.upList) (hd : t.seq.downList = s.seq.downList) (hq : s.queue.sound → t.queue.sound) :
    KeepsBase s t := by
  refine KeepsBase.switchSeq (by rw [ht]) hu hd ?_ hq
  intro j
  rw [ht]
  exact ⟨rfl, rfl, id⟩

/-- Demands follow a state with what it may demand at least that of the state before, where no demand moves. -/
theorem State.demandsFollow.mono {s t : State} (h : s.demandsFollow) (hu : t.seq.upList = s.seq.upList)
    (hd : t.seq.downList = s.seq.downList) (hw : ∀ i : Fin 8, t.switches[i].demand = s.switches[i].demand)
    (hm : ∀ i ∈ s.seq.mayDemand, i ∈ t.seq.mayDemand) : t.demandsFollow := by
  refine ⟨by rw [hu, hd]; exact h.1, fun i hi => hm i (h.2 i ?_)⟩
  rw [← hw i]
  exact hi

theorem State.upListEnd_keepsBase (s : State) : KeepsBase s s.upListEnd :=
  KeepsBase.seqOnly rfl rfl rfl fun h => h.arrive _

theorem State.beginUp_keepsBase (s : State) (i : Nat) : KeepsBase s (s.beginUp i) := by
  unfold State.beginUp
  split
  · exact s.upListEnd_keepsBase
  · rename_i st _
    dsimp only
    split
    · exact KeepsBase.demandSeq st.switch true rfl rfl rfl
    · exact KeepsBase.demandSeq st.switch true rfl rfl rfl

/-- A step of the Up List begins where the demands lie in the Up List (R78, R85). -/
theorem State.beginUp_keeps {s : State} (i : Nat) (hm : ∀ j ∈ s.seq.mayDemand, j ∈ seqSwitches s.seq.upList) :
    Keeps s (s.beginUp i) := by
  refine ⟨s.beginUp_keepsBase i, fun h => ?_⟩
  unfold State.beginUp
  split
  · exact h.mono rfl rfl (fun _ => rfl) hm
  · rename_i st hst
    have hin : st.switch ∈ seqSwitches s.seq.upList := List.mem_map_of_mem (List.mem_of_getElem? hst)
    have key : ∀ j : Fin 8, (s.switches.set st.switch (s.switches[st.switch].takeDemand true))[j].demand = true →
        j ∈ seqSwitches s.seq.upList := by
      intro j hj
      by_cases e : st.switch = j
      · exact e ▸ hin
      · have e' : ¬st.switch.val = j.val := fun x => e (Fin.ext x)
        simp only [Fin.getElem_fin, Vector.getElem_set, e', if_false] at hj
        exact hm j (h.2 j hj)
    dsimp only
    split
    · exact ⟨h.1, key⟩
    · exact ⟨h.1, key⟩

theorem runDown_keepsBase (cause : DownCause) (l : List SeqStep) (i : Nat) (s : State) :
    KeepsBase s (runDown cause l i s) := by
  induction l generalizing i s with
  | nil => exact KeepsBase.seqOnly rfl rfl rfl fun h => h.arrive _
  | cons t rest ih =>
    unfold runDown
    dsimp only
    split
    · split
      · refine KeepsBase.trans ?_ (ih _ _)
        exact KeepsBase.demandSeq t.switch false rfl rfl rfl
      · exact KeepsBase.demandSeq t.switch false rfl rfl rfl
    · exact KeepsBase.demandSeq t.switch false rfl rfl rfl

theorem runDown_follows (cause : DownCause) (l : List SeqStep) (i : Nat) (s : State)
    (hl : l = s.seq.downList.drop i) (hud : ∀ j ∈ seqSwitches s.seq.upList, j ∈ seqSwitches s.seq.downList)
    (hm : ∀ j : Fin 8, s.switches[j].demand = true → j ∈ seqSwitches l) : (runDown cause l i s).demandsFollow := by
  induction l generalizing i s with
  | nil =>
    refine ⟨hud, fun j hj => ?_⟩
    exact absurd (hm j hj) (by simp [seqSwitches])
  | cons t rest ih =>
    have hrest : rest = s.seq.downList.drop (i + 1) := by
      rw [← List.drop_drop, ← hl]
      rfl
    have key : ∀ j : Fin 8, (s.switches.set t.switch (s.switches[t.switch].takeDemand false))[j].demand = true →
        j ∈ seqSwitches rest := by
      intro j hj
      by_cases e : t.switch = j
      · subst e
        simp at hj
      · have e' : ¬t.switch.val = j.val := fun x => e (Fin.ext x)
        simp only [Fin.getElem_fin, Vector.getElem_set, e', if_false] at hj
        have := hm j hj
        simp only [seqSwitches, List.map_cons, List.mem_cons] at this
        rcases this with this | this
        · exact absurd this.symm e
        · exact this
    have key' := key
    rw [hrest] at key'
    unfold runDown
    dsimp only
    split
    · split
      · exact ih (i + 1) _ hrest hud key
      · exact ⟨hud, key'⟩
    · exact ⟨hud, key'⟩

/-- Down step `i` begins where the demands lie in the steps from `i` on (R81, R91). -/
theorem State.beginDown_keeps {s : State} (cause : DownCause) (i : Nat)
    (hm : ∀ j ∈ s.seq.mayDemand, j ∈ seqSwitches (s.seq.downList.drop i)) : Keeps s (s.beginDown cause i) :=
  ⟨runDown_keepsBase _ _ _ _, fun h => runDown_follows _ _ _ _ rfl h.1 fun j hj => hm j (h.2 j hj)⟩

/-- A power-down keeps, from whatever demands the Down List covers (R87). -/
theorem State.powerDown_keeps {s : State} (cause : DownCause)
    (hm : ∀ j ∈ s.seq.mayDemand, j ∈ seqSwitches s.seq.upList) : Keeps s (s.powerDown cause) := by
  refine ⟨?_, fun h => ?_⟩
  · refine KeepsBase.trans (t := s.modSeq fun q =>
      { q.stopTimers with state := .poweringDown 0 .waiting cause, outcome := cause.outcome }) ?_ (runDown_keepsBase _ _ _ _)
    exact KeepsBase.seqOnly rfl rfl rfl id
  · exact runDown_follows _ _ _ _ rfl h.1 fun j hj => h.1 j (hm j (h.2 j hj))

/-! ### Messages to the Sequencer -/

theorem Sequencer.mayDemand_up {q : Sequencer} {i : Nat} {p : StepPhase} (h : q.state = .poweringUp i p) :
    q.mayDemand = seqSwitches q.upList := by simp [Sequencer.mayDemand, h]

theorem Sequencer.mayDemand_running {q : Sequencer} (h : q.state = .running) :
    q.mayDemand = seqSwitches q.upList := by simp [Sequencer.mayDemand, h]

theorem Sequencer.mayDemand_standby {q : Sequencer} (h : q.state = .standby) : q.mayDemand = [] := by
  simp [Sequencer.mayDemand, h]

theorem Sequencer.mayDemand_down {q : Sequencer} {i : Nat} {p : StepPhase} {c : DownCause}
    (h : q.state = .poweringDown i p c) : q.mayDemand = seqSwitches (q.downList.drop (i + 1)) := by
  simp [Sequencer.mayDemand, h]

theorem State.upConditionMet_keeps {s : State} {i : Nat} {p : StepPhase} (h : s.seq.state = .poweringUp i p) :
    Keeps s (s.upConditionMet i) := by
  unfold State.upConditionMet
  split
  · exact .refl s
  · split
    · exact s.beginUp_keeps _ (by rw [Sequencer.mayDemand_up h]; exact fun _ => id)
    · refine ⟨KeepsBase.seqOnly rfl rfl rfl id, fun hf => hf.mono rfl rfl (fun _ => rfl) ?_⟩
      rw [Sequencer.mayDemand_up h]
      exact fun _ => id

theorem State.downConditionMet_keeps {s : State} {i : Nat} {p : StepPhase} {c : DownCause}
    (h : s.seq.state = .poweringDown i p c) : Keeps s (s.downConditionMet c i) := by
  unfold State.downConditionMet
  split
  · exact .refl s
  · split
    · exact s.beginDown_keeps _ _ (by rw [Sequencer.mayDemand_down h]; exact fun _ => id)
    · refine ⟨KeepsBase.seqOnly rfl rfl rfl id, fun hf => hf.mono rfl rfl (fun _ => rfl) ?_⟩
      rw [Sequencer.mayDemand_down h]
      exact fun _ => id

theorem State.seqSwitchOn_keeps (s : State) (i : Fin 8) : Keeps s (s.seqSwitchOn i) := by
  unfold State.seqSwitchOn
  split
  · rename_i h
    split
    · exact s.upConditionMet_keeps h
    · exact .refl s
  all_goals exact .refl s

theorem State.seqSwitchFailed_keeps (s : State) (i : Fin 8) : Keeps s (s.seqSwitchFailed i) := by
  unfold State.seqSwitchFailed
  split
  · rename_i h
    split
    · exact s.powerDown_keeps _ (by rw [Sequencer.mayDemand_up h]; exact fun _ => id)
    · exact .refl s
  all_goals exact .refl s

theorem State.takeFailures_keeps (s : State) : Keeps s s.takeFailures := by
  refine Keeps.trans (t := s.modSeq fun q => { q with failed := [] }) ?_ (Keeps.foldl State.seqSwitchFailed_keeps _ _)
  exact Keeps.failedOnly s _

/-- In no state but POWERING_UP does a FAILED message move anything (R89). -/
theorem State.seqSwitchFailed_idle {s : State} (h : ∀ j p, s.seq.state ≠ .poweringUp j p) (i : Fin 8) :
    s.seqSwitchFailed i = s := by
  unfold State.seqSwitchFailed
  split
  · rename_i h1
    exact absurd h1 (h _ _)
  all_goals rfl

/-- With no message on its way, nothing is taken. -/
theorem State.takeFailures_none {s : State} (h : s.seq.failed = []) : s.takeFailures = s := by
  unfold State.takeFailures
  rw [h]
  change { s with seq := { s.seq with failed := [] } } = s
  rw [← h]

/-- In no state but POWERING_UP do the messages on their way move anything; they are gone (R80, R89). -/
theorem State.takeFailures_idle {s : State} (h : ∀ j p, s.seq.state ≠ .poweringUp j p) :
    s.takeFailures = s.modSeq fun q => { q with failed := [] } := by
  have stays : ∀ (l : List (Fin 8)) (t : State), (∀ j p, t.seq.state ≠ .poweringUp j p) →
      l.foldl State.seqSwitchFailed t = t := by
    intro l
    induction l with
    | nil => intro t _; rfl
    | cons i l ih => intro t ht; rw [List.foldl_cons, State.seqSwitchFailed_idle ht, ih t ht]
  exact stays _ _ h

theorem State.seqIndicator_keeps (s : State) (i : Fin 8) (v : Bool) : Keeps s (s.seqIndicator i v) := by
  unfold State.seqIndicator
  split
  · rename_i h
    split
    · exact s.downConditionMet_keeps h
    · exact .refl s
  all_goals exact .refl s

theorem State.seqAbort_keeps (s : State) (n : Fin 32) : Keeps s (s.seqAbort n) := by
  unfold State.seqAbort
  split
  · rename_i h
    exact s.powerDown_keeps _ (by rw [Sequencer.mayDemand_up h]; exact fun _ => id)
  · rename_i h
    exact s.powerDown_keeps _ (by rw [Sequencer.mayDemand_running h]; exact fun _ => id)
  all_goals exact .refl s

/-! ### Expiries of the Sequencer -/

theorem stepLimitExpiry_keeps (s : State) : Keeps s (stepLimitExpiry s) := by
  unfold stepLimitExpiry
  split
  · rename_i h
    split
    · exact .refl s
    · split
      · refine (Keeps.post _ _ _ _ _).trans (State.powerDown_keeps _ ?_)
        show ∀ j ∈ s.seq.mayDemand, j ∈ seqSwitches s.seq.upList
        rw [Sequencer.mayDemand_up h]
        exact fun _ => id
      · exact .refl s
  all_goals exact .refl s

theorem dischargeExpiry_keeps (s : State) : Keeps s (dischargeExpiry s) := by
  unfold dischargeExpiry
  split
  · rename_i h
    split
    · exact .refl s
    · split
      · exact (Keeps.post _ _ _ _ _).trans (State.downConditionMet_keeps h)
      · exact .refl s
  all_goals exact .refl s

theorem settleExpiry_keeps (s : State) : Keeps s (settleExpiry s) := by
  unfold settleExpiry
  split
  · split
    · rename_i h
      exact s.beginUp_keeps _ (by rw [Sequencer.mayDemand_up h]; exact fun _ => id)
    · rename_i h
      exact s.beginDown_keeps _ _ (by rw [Sequencer.mayDemand_down h]; exact fun _ => id)
    all_goals exact .refl s
  · exact .refl s

/-! ### Switches -/

/-- One switch moves by itself, its configuration, demand and hold set aside. -/
theorem Keeps.switchOnly {s : State} {i : Fin 8} {w : Switch} (hc : w.config = s.switches[i].config)
    (hd : w.demand = s.switches[i].demand) (hh : w.holds = s.switches[i].holds)
    (hl : s.switches[i].legal → w.legal) : Keeps s { s with switches := s.switches.set i w } := by
  have each : ∀ j : Fin 8, (s.switches.set i w)[j].config = s.switches[j].config ∧
      (s.switches.set i w)[j].holds = s.switches[j].holds ∧ (s.switches[j].legal → (s.switches.set i w)[j].legal) ∧
      (s.switches.set i w)[j].demand = s.switches[j].demand := by
    intro j
    simp only [Fin.getElem_fin, Vector.getElem_set]
    split
    · rename_i e
      have e : i = j := Fin.ext e
      subst e
      exact ⟨hc, hh, hl, hd⟩
    · exact ⟨rfl, rfl, id, rfl⟩
  refine ⟨KeepsBase.switchSeq rfl rfl rfl (fun j => ⟨(each j).1, (each j).2.1, (each j).2.2.1⟩) id, fun h => ?_⟩
  exact State.demandsFollow_of (s := s) rfl (fun j => (each j).2.2.2) h

theorem State.goodSample_keeps (s : State) (i : Fin 8) (x : Reading) : Keeps s (s.goodSample i x) := by
  unfold State.goodSample
  split
  · rename_i h
    refine Keeps.trans (t := s.modSwitch i fun w => w.enter .on) ?_
      ((State.takeFailures_keeps _).trans (State.seqSwitchOn_keeps _ _))
    exact Keeps.switchOnly rfl rfl rfl fun hl => hl.on h.1
  · exact .refl s

theorem State.setIndicator_keeps (s : State) (i : Fin 8) (v : Bool) : Keeps s (s.setIndicator i v) := by
  unfold State.setIndicator
  split
  · exact .refl s
  · refine Keeps.trans (t := s.modSwitch i fun w => { w with discharged := v }) ?_ (State.seqIndicator_keeps _ _ _)
    exact Keeps.switchOnly rfl rfl rfl fun hl => hl.discharged v

theorem State.watch_keeps (s : State) (ch : Fin 18) (i : Fin 8) (good : Bool) : Keeps s (s.watch ch i good) := by
  unfold State.watch
  dsimp only
  split
  · cases good
    · exact State.setIndicator_keeps _ _ _
    · exact (State.goodSample_keeps _ _ _).trans (State.setIndicator_keeps _ _ _)
  · exact State.setIndicator_keeps _ _ _

theorem State.indicatorsFalse_keeps (s : State) (ch : Fin 18) : Keeps s (s.indicatorsFalse ch) :=
  Keeps.foldl (fun t i => t.setIndicator_keeps i false) _ _

/-- A ramp timer that expires fails its switch, and the Sequencer takes what it is told at once or later (R57, R80; log 26). -/
theorem rampExpiry_cases {s : State} {i : Fin 8} (h : s.switches[i].state = .ramping)
    (hd : s.switches[i].rampTimer.due = true) :
    rampExpiry i s = { s.failSwitch i with choice := s.choice + 1 } ∨
      rampExpiry i s = ({ s.failSwitch i with choice := s.choice + 1 } : State).takeFailures := by
  unfold rampExpiry
  rw [if_pos ⟨h, hd⟩]
  by_cases hz : ((s.failSwitch i).draw Config.freeOrder 1).1 = 0
  · exact .inr (if_pos hz)
  · exact .inl (if_neg hz)

theorem rampExpiry_keeps (i : Fin 8) (s : State) : Keeps s (rampExpiry i s) := by
  unfold rampExpiry
  split
  · rename_i h
    have told : Keeps s ((s.failSwitch i).draw Config.freeOrder 1).2 := by
      refine Keeps.trans (t := s.modSwitch i fun w => w.enter .failed)
        (Keeps.switchOnly rfl rfl rfl fun hl => hl.failed h.1) ?_
      exact (Keeps.post _ .switchRampFail (some i.val) 0 2).trans ((Keeps.failedOnly _ _).trans (Keeps.draw _ _ _))
    dsimp only
    split
    · exact told.trans (State.takeFailures_keeps _)
    · exact told
  · exact .refl s

theorem State.invalidate_keeps (s : State) (ch : Fin 18) : Keeps s (s.invalidate ch) :=
  (Keeps.other rfl).trans (State.indicatorsFalse_keeps _ _)

end Sys2Proof.Machine
end

