-- ==== Sys2Proof/Laws/Entries.lean ====
section
/-! SUPPORT. The Qualification Engine, the Limit Table and the frame, once each: qualifications, evaluations, loads, the
messages of a step and of a frame end, and the starts and ends of frames keep what `Keeps` says. -/

namespace Sys2Proof.Machine

/-! ### Legality of one entry -/

theorem Entry.legal.qualified {e : Entry} (h : e.legal) (hs : e.state = .idle ∨ e.state = .pending) (id : Byte) :
    (e.qualified id).legal := by
  obtain ⟨g1, _, _, _, _, _, _⟩ := h
  have he : e.config.isEnabled = true := by
    rcases hs with hs | hs <;> rw [hs] at g1 <;> simpa using g1
  unfold Entry.legal Entry.qualified
  cases hl : e.config.isLock <;> simp [he, EntryState.active]

theorem Entry.legal.toIdle {e : Entry} (h : e.legal) (hs : e.state ≠ .off) (count : Byte) :
    ({ e.rest .idle with transients := count } : Entry).legal := by
  have he : e.config.isEnabled = true := by simpa [hs] using h.1
  simp [Entry.legal, Entry.rest, he, EntryState.active]

theorem Entry.legal.toPending {e : Entry} (h : e.legal) (hs : e.state = .idle) (dwell : Half) (d : DwellRecord) :
    ({ e with state := .pending, dwellTimer := some dwell, dwellRecord := some d } : Entry).legal := by
  obtain ⟨g1, _, _, g4, _, _, _⟩ := h
  simp only [hs] at g1 g4
  simp_all [Entry.legal, EntryState.active]

theorem Entry.legal.toAsserted {e : Entry} (h : e.legal) (ha : e.state.active = true) (hl : e.state ≠ .locked) :
    (e.rest .asserted).legal := by
  obtain ⟨g1, _, _, _, _, _, g7⟩ := h
  have he : e.config.isEnabled = true := by
    have : e.state ≠ .off := fun x => by rw [x] at ha; cases ha
    simpa [this] using g1
  have hk : e.config.isLock = false := by simpa [hl] using g7 ha
  simp [Entry.legal, Entry.rest, he, hk]

theorem Entry.legal.toReleasable {e : Entry} (h : e.legal) (hs : e.state = .asserted)
    (hm : e.config.isHostMode = true) : (e.rest .releasable).legal := by
  obtain ⟨g1, _, _, _, _, _, g7⟩ := h
  simp only [hs] at g1 g7
  simp_all [Entry.legal, Entry.rest, EntryState.active]

theorem Entry.legal.toRecovering {e : Entry} (h : e.legal) (hs : e.state = .asserted)
    (hm : e.config.isHostMode = false) (ht : e.config.recoveryTime ≠ 0) :
    ({ e.rest .recovering with recoveryTimer := some e.config.recoveryTime } : Entry).legal := by
  obtain ⟨g1, _, _, _, _, _, g7⟩ := h
  simp only [hs] at g1 g7
  simp_all [Entry.legal, Entry.rest, EntryState.active]

/-! ### Qualification -/

theorem State.capture_keeps (s : State) (n : Fin 32) (d : DwellRecord) : Keeps s (s.capture n d).1 := by
  unfold State.capture
  dsimp only
  split
  · refine Keeps.trans (t := { s with captures :=
      (s.captures.make n s.entries[n].config.isLock s.timestamp d (s.companionReadings s.entries[n].config)).1 })
      (Keeps.capturesOnly fun h => h.make _ _ _ _ _) ?_
    exact Keeps.faultOnly rfl (fun _ => rfl) fun _ => id
  · exact Keeps.capturesOnly fun h => h.make _ _ _ _ _

theorem State.capture_entries (s : State) (n : Fin 32) (d : DwellRecord) : (s.capture n d).1.entries = s.entries := by
  unfold State.capture
  dsimp only
  split <;> rfl

/-- A qualification of an enabled entry that is not active, keeps (R30 to R35). -/
theorem State.qualify_keeps {s : State} {n : Fin 32} (d : DwellRecord)
    (hs : s.entries[n].state = .idle ∨ s.entries[n].state = .pending) : Keeps s (s.qualify n d) := by
  unfold State.qualify
  dsimp only
  refine (s.capture_keeps n d).trans ?_
  have he : (s.capture n d).1.entries[n] = s.entries[n] := by rw [s.capture_entries]
  generalize (s.capture n d).1 = t at he
  generalize (s.capture n d).2 = id
  unfold State.announce
  dsimp only
  rw [State.joinMask_ite]
  have hj : Keeps t ((t.modEntry n fun e => e.qualified id).joinMask (.e n)
      (t.modEntry n fun e => e.qualified id).entries[n].config.mask) := by
    have hm : (t.modEntry n fun e => e.qualified id).entries[n].config.mask = (t.entries[n].qualified id).config.mask := by
      simp
    rw [hm]
    refine Keeps.activate ?_ ?_ ?_
    · rw [he]
      rcases hs with hs | hs <;> rw [hs] <;> rfl
    · unfold Entry.qualified
      dsimp only
      split <;> rfl
    · exact fun h => h.qualified (by rw [he]; exact hs) id
  refine hj.trans ?_
  generalize (t.modEntry n fun e => e.qualified id).joinMask (.e n)
      (t.modEntry n fun e => e.qualified id).entries[n].config.mask = u
  generalize (t.modEntry n fun e => e.qualified id).entries[n].config = c
  generalize hv : u.post (if c.isLock = true then .entryLocked else .entryAsserted) (some n.val)
    (BitVec.zeroExtend 16 id) c.classOf = v
  have hp : Keeps u v := hv ▸ Keeps.post u _ _ _ _
  refine hp.trans ?_
  have key : Keeps v (if c.isLock then v.lockRequest n c.mask else v) := by
    split
    · exact v.lockRequest_keeps n c.mask
    · exact .refl v
  refine key.trans ?_
  generalize (if c.isLock = true then v.lockRequest n c.mask else v) = w
  split
  · exact w.seqAbort_keeps n
  · exact .refl w

/-! ### Letting go -/

/-- The return of an active entry to IDLE keeps (R38, R46). -/
theorem State.recover_keeps {s : State} {n : Fin 32} (h : s.entries[n].state.active = true) (c : RecoverCause) :
    Keeps s (s.recover n c) := by
  unfold State.recover State.letGo State.postRecovered
  dsimp only
  refine Keeps.trans (t := (s.modEntry n fun e => e.rest .idle).leaveMask (.e n) s.entries[n].config.mask) ?_ ?_
  · refine Keeps.deactivate h rfl ?_
    exact fun hl => hl.toIdle (fun x => by rw [x] at h; cases h) _
  · split
    · rename_i e
      have hz : (s.modEntry n fun e => e.rest .idle).leaveMask (.e n) s.entries[n].config.mask =
          s.modEntry n fun e => e.rest .idle :=
        (congrArg (State.leaveMask _ _) e).trans (State.leaveMask_zero _ _)
      rw [hz]
      exact Keeps.post _ _ _ _ _
    · exact Keeps.post _ _ _ _ _

theorem State.lockCleared_keeps (s : State) (n : Fin 32) : Keeps s (s.lockCleared n) := by
  unfold State.lockCleared
  split
  · rename_i h
    exact State.recover_keeps (by rw [h]; rfl) _
  · exact .refl s

/-! ### Messages of an erase completion -/

theorem State.receive_keeps (s : State) (m : ClearMessage) : Keeps s (s.receive m) := by
  cases m with
  | engine n => exact s.lockCleared_keeps n
  | store n => exact Keeps.capturesOnly fun h => h.unpin n

/-- A change of the messages on their way keeps. -/
theorem State.sent_keeps (s : State) (l : List ClearMessage) :
    Keeps s { s with fault := { s.fault with sent := l } } :=
  Keeps.faultOnly rfl (fun _ => rfl) fun _ => id

theorem State.receiveWhere_keeps (p : ClearMessage → Bool) (s : State) : Keeps s (s.receiveWhere p) :=
  (s.sent_keeps _).trans (Keeps.foldl State.receive_keeps _ _)

theorem State.receiveEngine_keeps (s : State) : Keeps s s.receiveEngine := State.receiveWhere_keeps _ s

theorem State.receiveAll_keeps (s : State) : Keeps s s.receiveAll := State.receiveWhere_keeps _ s

/-- With no such message on its way, nothing is taken. -/
theorem State.receiveWhere_none {p : ClearMessage → Bool} {s : State} (h : ∀ m ∈ s.fault.sent, p m = false) :
    s.receiveWhere p = s := by
  have h1 : s.fault.sent.filter p = [] := List.filter_eq_nil_iff.mpr fun m hm => by simp [h m hm]
  have h2 : (s.fault.sent.filter fun m => !p m) = s.fault.sent := List.filter_eq_self.mpr fun m hm => by simp [h m hm]
  unfold State.receiveWhere
  rw [h1]
  show { s with fault := { s.fault with sent := s.fault.sent.filter fun m => !p m } } = s
  rw [h2]

theorem State.receiveEngine_none {s : State} (h : s.fault.sent = []) : s.receiveEngine = s :=
  State.receiveWhere_none (by simp [h])

theorem State.receiveAll_none {s : State} (h : s.fault.sent = []) : s.receiveAll = s :=
  State.receiveWhere_none (by simp [h])

/-- The return of an entry to IDLE leaves an entry PENDING alone. -/
theorem State.receive_pending {s : State} {n : Fin 32} (h : s.entries[n].state = .pending) (m : ClearMessage) :
    (s.receive m).entries[n] = s.entries[n] := by
  cases m with
  | store k => rfl
  | engine k =>
    show (s.lockCleared k).entries[n] = _
    unfold State.lockCleared
    split
    · rename_i hk
      have hne : k ≠ n := fun e => by rw [e, h] at hk; cases hk
      unfold State.recover State.letGo State.postRecovered
      have : (k : Nat) ≠ n := fun e => hne (Fin.ext e)
      dsimp only
      split <;> simp [State.post, State.leaveMask, State.mapSwitches, this]
    · rfl

theorem State.receiveWhere_pending (p : ClearMessage → Bool) {s : State} {n : Fin 32}
    (h : s.entries[n].state = .pending) : (s.receiveWhere p).entries[n] = s.entries[n] := by
  unfold State.receiveWhere
  generalize hs : (s.modFault fun f => { f with sent := f.sent.filter fun m => !p m }) = t
  have ht : t.entries[n] = s.entries[n] := by rw [← hs]; rfl
  generalize s.fault.sent.filter p = l
  clear hs
  induction l generalizing t with
  | nil => exact ht
  | cons m l ih =>
    refine ih (t.receive m) ?_
    rw [State.receive_pending (by rw [ht]; exact h), ht]

/-! ### Evaluations -/

/-- An entry that goes to a state as active as before, with its timers as that state has them, keeps. -/
theorem State.evaluate_keeps (s : State) (r : Fin 22) (n : Fin 32) : Keeps s (s.evaluate r n) := by
  unfold State.evaluate
  dsimp only
  split
  · split
    · exact .refl s
    · rename_i hs
      unfold State.evaluateIdle
      split
      · split
        · exact State.qualify_keeps _ (.inl hs)
        · refine Keeps.entryOnly ?_ (.inl ⟨rfl, by rw [hs]; rfl⟩)
          exact fun hl => hl.toPending hs _ _
      · exact .refl s
    · rename_i hs
      unfold State.evaluatePending
      dsimp only
      split
      · refine Keeps.entryOnly ?_ (.inr ⟨rfl, rfl⟩)
        rintro ⟨g1, g2, _, g4, g5, g6, g7⟩
        exact ⟨g1, g2, by simpa using hs, g4, g5, g6, g7⟩
      · have hk : Keeps s (s.modEntry n fun e => { e.rest .idle with transients := satSucc8 e.transients }) := by
          refine Keeps.entryOnly ?_ (.inl ⟨rfl, by rw [hs]; rfl⟩)
          exact fun hl => hl.toIdle (by rw [hs]; simp) _
        split
        · exact hk.trans (Keeps.post _ _ _ _ _)
        · exact hk
    · rename_i hs
      unfold State.evaluateAsserted
      dsimp only
      split
      · split
        · rename_i hm
          refine Keeps.entryOnly ?_ (.inr ⟨by rw [hs]; rfl, rfl⟩)
          exact fun hl => hl.toReleasable hs hm
        · split
          · exact State.recover_keeps (by rw [hs]; rfl) _
          · rename_i hm ht
            refine Keeps.entryOnly ?_ (.inr ⟨by rw [hs]; rfl, rfl⟩)
            exact fun hl => hl.toRecovering hs (by simpa using hm) ht
      · exact .refl s
    · rename_i hs
      split
      · exact .refl s
      · refine Keeps.entryOnly ?_ (.inr ⟨by rw [hs]; rfl, rfl⟩)
        exact fun hl => hl.toAsserted (by rw [hs]; rfl) (by rw [hs]; simp)
    · rename_i hs
      split
      · exact .refl s
      · refine Keeps.entryOnly ?_ (.inr ⟨by rw [hs]; rfl, rfl⟩)
        exact fun hl => hl.toAsserted (by rw [hs]; rfl) (by rw [hs]; simp)
    · exact .refl s
  · exact .refl s

/-! ### Expiries -/

theorem dwellExpiry_keeps (s : State) (n : Fin 32) : Keeps s (dwellExpiry n s) := by
  unfold dwellExpiry
  split
  · split
    · rename_i h
      refine s.receiveEngine_keeps.trans (State.qualify_keeps _ (.inr ?_))
      rw [State.receiveEngine, State.receiveWhere_pending _ h.1]
      exact h.1
    · exact .refl s
  · exact .refl s

theorem recoveryExpiry_keeps (s : State) (n : Fin 32) : Keeps s (recoveryExpiry n s) := by
  unfold recoveryExpiry
  split
  · rename_i h
    exact State.recover_keeps (by rw [h.1]; rfl) _
  · exact .refl s

/-! ### The messages of a step and of a frame end -/

theorem State.take_keeps (s : State) (m : Message) : Keeps s (s.take m).1 := by
  cases m with
  | update ch code => exact Keeps.other rfl
  | evaluate r n => exact s.evaluate_keeps r n
  | watch ch i good => exact s.watch_keeps ch i good

theorem State.pick_keeps (s : State) (m : Message) (rest : List Message) : Keeps s (s.pick m rest).2 := by
  unfold State.pick
  split
  · exact .refl s
  · exact Keeps.other rfl

theorem drain_keeps (fuel : Nat) (l : List Message) (s : State) : Keeps s (drain fuel l s) := by
  induction fuel generalizing l s with
  | zero => exact .refl s
  | succ fuel ih =>
    cases l with
    | nil => exact .refl s
    | cons m rest =>
      unfold drain
      dsimp only
      have h1 := s.pick_keeps m rest
      have h2 := State.take_keeps (s.pick m rest).2 (s.pick m rest).1.1
      exact h1.trans (h2.trans (ih _ _))

/-- A message that waits alone is taken without a draw (R25; log 3). -/
theorem drain_single (fuel : Nat) (m : Message) (s : State) :
    drain (fuel + 1) [m] s = drain fuel (s.take m).2 (s.take m).1 := by
  simp [drain, State.pick]

theorem drain_none (fuel : Nat) (s : State) : drain fuel [] s = s := by
  cases fuel <;> rfl

theorem State.takeAll_keeps (s : State) (l : List Message) : Keeps s (s.takeAll l) :=
  drain_keeps _ _ s

theorem State.handOver_keeps (s : State) (x : StepCodes) : Keeps s (s.handOver x) := by
  unfold State.handOver
  split
  · exact .refl s
  · exact s.takeAll_keeps _

theorem State.deriveOne_keeps (s : State) (d : Fin 4) : Keeps s (s.deriveOne d).1 := by
  unfold State.deriveOne
  dsimp only
  split
  · exact .refl s
  · split <;> exact Keeps.other rfl

theorem deriveFrom_keeps (l : List (Fin 4)) (s : State) : Keeps s (deriveFrom l s).1 := by
  induction l generalizing s with
  | nil => exact .refl s
  | cons d rest ih => exact (s.deriveOne_keeps d).trans (ih _)

theorem State.derivedFrameEnd_keeps (s : State) : Keeps s s.derivedFrameEnd := by
  have h := deriveFrom_keeps (List.finRange 4) s
  exact h.trans (State.takeAll_keeps _ _)

theorem State.derivedFrameStart_keeps (s : State) : Keeps s s.derivedFrameStart := by
  refine Keeps.foldl (fun t d => ?_) _ _
  unfold State.derivedIntoForce
  dsimp only
  split
  · exact .refl t
  · exact Keeps.other rfl

/-! ### Loads -/

/-- A load applied to an entry that is not active keeps (R17). -/
theorem State.applyLoad_keeps {s : State} {n : Fin 32} (h : s.entries[n].state.active = false) (c : EntryConfig) :
    Keeps s (s.applyLoad n c) := by
  unfold State.applyLoad
  dsimp only
  have hx : (s.stateAfterLoad n c = .off ∧ c.isEnabled = false) ∨ (s.stateAfterLoad n c = .idle ∧ c.isEnabled = true) ∨
      (s.stateAfterLoad n c = .locked ∧ c.isEnabled = true ∧ c.isLock = true) := by
    unfold State.stateAfterLoad
    cases h1 : c.isEnabled <;> cases h2 : c.isLock <;> cases h3 : (s.fault.slotNaming n).isSome <;> simp
  rcases hx with ⟨hx, he⟩ | ⟨hx, he⟩ | ⟨hx, he, hl⟩
  · rw [hx]
    rw [if_neg (by simp)]
    refine Keeps.trans (t := s.modEntry n fun _ => { Entry.default with config := c, state := .off }) ?_
      (Keeps.post _ _ _ _ _)
    refine Keeps.entryOnly ?_ (.inl ⟨rfl, h⟩)
    intro _
    simp [Entry.legal, Entry.default, he, EntryState.active]
  · rw [hx]
    rw [if_neg (by simp)]
    refine Keeps.trans (t := s.modEntry n fun _ => { Entry.default with config := c, state := .idle }) ?_
      (Keeps.post _ _ _ _ _)
    refine Keeps.entryOnly ?_ (.inl ⟨rfl, h⟩)
    intro _
    simp [Entry.legal, Entry.default, he, EntryState.active]
  · rw [hx]
    have hj : Keeps s ((s.modEntry n fun _ => { Entry.default with config := c, state := .locked }).joinMask (.e n)
        c.mask) := by
      refine Keeps.activate h rfl ?_
      intro _
      simp [Entry.legal, Entry.default, he, hl, EntryState.active]
    refine Keeps.trans (t := (s.modEntry n fun _ => { Entry.default with config := c, state := .locked }).joinMask (.e n)
      c.mask) hj ?_
    split
    · exact Keeps.post _ _ _ _ _
    · rename_i hm
      have hm : c.mask = 0 := by simpa using hm
      rw [hm, State.joinMask_zero]
      exact Keeps.post _ _ _ _ _

theorem State.abandonLoad_keeps (s : State) (n : Fin 32) : Keeps s (s.abandonLoad n) := by
  refine Keeps.trans (t := s.modEntry n fun e => { e with pendingLoad := none }) ?_ (Keeps.post _ _ _ _ _)
  exact Keeps.entryOnly id (.inr ⟨rfl, rfl⟩)

theorem State.dealLoad_keeps (s : State) (n : Fin 32) : Keeps s (s.dealLoad n) := by
  unfold State.dealLoad
  split
  · exact .refl s
  · split
    · exact s.abandonLoad_keeps n
    · rename_i h
      exact State.applyLoad_keeps (by simpa using h) _

theorem State.dealLoads_keeps (s : State) : Keeps s s.dealLoads :=
  Keeps.foldl State.dealLoad_keeps _ _

theorem State.applyList_keeps (s : State) (l : List ScanStep) : Keeps s (s.applyList l) :=
  (Keeps.other rfl).trans (Keeps.foldl State.invalidate_keeps _ _)

theorem State.applyChannel_keeps (s : State) (ch : Fin 18) (c : ChannelConfig) : Keeps s (s.applyChannel ch c) :=
  (Keeps.other rfl).trans (State.invalidate_keeps _ _)

theorem State.applyScanLoads_keeps (s : State) : Keeps s s.applyScanLoads := by
  unfold State.applyScanLoads
  dsimp only
  have second : ∀ t : State, Keeps t (match t.scan.pendingChannel with
      | none => t
      | some (ch, c) => t.applyChannel ch c) := by
    intro t
    split
    · exact .refl t
    · exact t.applyChannel_keeps _ _
  have first : Keeps s (match s.scan.pendingList with
      | none => s
      | some l => s.applyList l) := by
    split
    · exact .refl s
    · exact s.applyList_keeps _
  exact first.trans (second (match s.scan.pendingList with
    | none => s
    | some l => s.applyList l))

/-! ### Frames -/

theorem State.becomeQuiet_keeps (s : State) : Keeps s s.becomeQuiet :=
  s.applyScanLoads_keeps.trans (State.dealLoads_keeps _)

theorem State.frameStart_keeps (s : State) : Keeps s s.frameStart := by
  unfold State.frameStart
  dsimp only
  refine s.applyScanLoads_keeps.trans ?_
  generalize s.applyScanLoads = t
  refine Keeps.trans (t := t.modScan fun u => { u with frameNumber := u.frameNumber + 1 }) (Keeps.other rfl) ?_
  refine (State.dealLoads_keeps _).trans ?_
  generalize State.dealLoads _ = t
  refine (State.derivedFrameStart_keeps _).trans ?_
  generalize State.derivedFrameStart _ = t
  exact Keeps.other rfl

theorem State.trigger_keeps (s : State) : Keeps s s.trigger.1 := by
  unfold State.trigger
  split
  · exact s.frameStart_keeps
  · split
    · exact Keeps.other rfl
    · exact Keeps.post _ _ _ _ _

theorem State.frameEnd_keeps (s : State) : Keeps s s.frameEnd := by
  unfold State.frameEnd
  dsimp only
  refine s.derivedFrameEnd_keeps.trans ?_
  generalize s.derivedFrameEnd = t
  refine Keeps.trans (t := t.modScan fun u => { u with scanning := false, stepIndex := 0, sampled := none })
    (Keeps.other rfl) ?_
  generalize t.modScan _ = u
  split
  · refine Keeps.trans (t := u.modScan fun x => { x with pendingTrigger := false }) (Keeps.other rfl) ?_
    exact State.frameStart_keeps _
  · split
    · exact State.becomeQuiet_keeps _
    · exact .refl _

/-- The completion of a step keeps (R106, R107). -/
theorem scanStepComplete_keeps (s : State) : Keeps s (scanStepComplete s) := by
  unfold scanStepComplete
  split
  · exact .refl s
  · split
    · have h := s.receiveEngine_keeps.trans (State.handOver_keeps _ (by assumption))
      dsimp only
      split
      · exact h.trans (Keeps.other rfl)
      · exact h.trans (State.frameEnd_keeps _)
    · exact .refl s

end Sys2Proof.Machine
end

