-- ==== Sys2Proof/Laws/Scan.lean ====
section
/-! SUPPORT. The frame timer: when it is due, what a reload leaves, and that no frame start moves it (R101, R102). -/

namespace Sys2Proof.Machine

@[simp] theorem ScanUnit.reloadTimer_mode (u : ScanUnit) : u.reloadTimer.mode = u.mode := rfl
@[simp] theorem ScanUnit.reloadTimer_scanning (u : ScanUnit) : u.reloadTimer.scanning = u.scanning := rfl
@[simp] theorem ScanUnit.reloadTimer_pendingTrigger (u : ScanUnit) :
    u.reloadTimer.pendingTrigger = u.pendingTrigger := rfl
@[simp] theorem ScanUnit.reloadTimer_period (u : ScanUnit) : u.reloadTimer.period = u.period := rfl
@[simp] theorem ScanUnit.reloadTimer_frameTimer (u : ScanUnit) :
    u.reloadTimer.frameTimer = u.frameTimer.map fun left : Int => left + u.period.toNat := rfl

/-- The frame timer is due exactly while it runs with fewer than ten units left (log 8). -/
theorem ScanUnit.timerDue_iff (u : ScanUnit) : u.timerDue = true ↔ ∃ left, u.frameTimer = some left ∧ left < 10 := by
  cases h : u.frameTimer <;> simp [ScanUnit.timerDue, h]

/-- The passage leaves the scan mode, the frame timer and the period. -/
def TimerStays (s t : State) : Prop :=
  t.scan.mode = s.scan.mode ∧ t.scan.frameTimer = s.scan.frameTimer ∧ t.scan.period = s.scan.period

theorem TimerStays.refl (s : State) : TimerStays s s := ⟨rfl, rfl, rfl⟩

theorem TimerStays.of_scan {s t : State} (h : t.scan = s.scan) : TimerStays s t := by simp [TimerStays, h]

theorem TimerStays.trans {s t u : State} (a : TimerStays s t) (b : TimerStays t u) : TimerStays s u :=
  ⟨b.1.trans a.1, b.2.1.trans a.2.1, b.2.2.trans a.2.2⟩

theorem TimerStays.foldl {α : Type} {f : State → α → State} (h : ∀ s x, TimerStays s (f s x)) (l : List α) (s : State) :
    TimerStays s (l.foldl f s) := by
  induction l generalizing s with
  | nil => exact .refl s
  | cons a l ih => exact (h s a).trans (ih _)

/-- An indicator that becomes false meets no down step (R82). -/
theorem State.seqIndicator_false (s : State) (i : Fin 8) : s.seqIndicator i false = s := by
  unfold State.seqIndicator
  split <;> simp

theorem State.invalidate_timerStays (s : State) (ch : Fin 18) : TimerStays s (s.invalidate ch) := by
  refine TimerStays.trans (t := s.modRecord (channelSource ch) MeasRecord.invalidated) (.of_scan rfl) ?_
  refine TimerStays.foldl (fun t i => ?_) _ _
  unfold State.setIndicator
  split
  · exact .refl t
  · rw [State.seqIndicator_false]
    exact .of_scan rfl

theorem State.applyScanLoads_timerStays (s : State) : TimerStays s s.applyScanLoads := by
  have channel (t : State) : TimerStays t (match t.scan.pendingChannel with
      | none => t
      | some (ch, c) => t.applyChannel ch c) := by
    split
    · exact .refl t
    · rename_i ch c _
      exact TimerStays.trans (t := t.modScan fun u => { u with channels := u.channels.set ch c, pendingChannel := none })
        ⟨rfl, rfl, rfl⟩ (State.invalidate_timerStays _ _)
  have list : TimerStays s (match s.scan.pendingList with
      | none => s
      | some l => s.applyList l) := by
    split
    · exact .refl s
    · rename_i l _
      exact TimerStays.trans (t := s.modScan fun u => { u with list := l, stepIndex := 0, pendingList := none })
        ⟨rfl, rfl, rfl⟩ (TimerStays.foldl State.invalidate_timerStays _ _)
  exact list.trans (channel _)

theorem State.dealLoads_timerStays (s : State) : TimerStays s s.dealLoads := by
  refine TimerStays.foldl (fun t n => ?_) _ _
  unfold State.dealLoad
  split
  · exact .refl t
  · split
    · exact .of_scan rfl
    · refine .of_scan ?_
      unfold State.applyLoad
      dsimp only
      split <;> rfl

/-- A frame start leaves the frame timer to run (R101, R105). -/
theorem State.frameStart_timerStays (s : State) : TimerStays s s.frameStart := by
  unfold State.frameStart
  dsimp only
  refine s.applyScanLoads_timerStays.trans ?_
  generalize s.applyScanLoads = t
  refine TimerStays.trans (t := t.modScan fun u => { u with frameNumber := u.frameNumber + 1 }) ⟨rfl, rfl, rfl⟩ ?_
  refine (State.dealLoads_timerStays _).trans ?_
  generalize State.dealLoads _ = t
  have derived : TimerStays t t.derivedFrameStart := by
    refine TimerStays.foldl (fun t d => ?_) _ _
    unfold State.derivedIntoForce
    dsimp only
    split
    · exact .refl t
    · exact .of_scan rfl
  refine derived.trans ?_
  generalize t.derivedFrameStart = u
  exact ⟨rfl, rfl, rfl⟩

/-- A trigger leaves the frame timer to run (R101, R104). -/
theorem State.trigger_timerStays (s : State) : TimerStays s s.trigger.1 := by
  unfold State.trigger
  split
  · exact s.frameStart_timerStays
  · split
    · exact ⟨rfl, rfl, rfl⟩
    · exact .of_scan rfl

end Sys2Proof.Machine
end

