-- ==== Sys2Proof/Tests/Slice0.lean ====
section
/-! SUPPORT. Tests of one step each on small states, with the expected results taken from the rules of spec/, and one
theorem `witness_…` for each statement that has hypotheses: concrete states and operands that meet them, clause by
clause. -/

namespace Sys2Proof.Tests

set_option Elab.async false

open Sys2Proof.Machine

/-! ### Small states -/

/-- A ready part in STANDBY, nothing configured. -/
def ready : State :=
  { State.reset with
    ready := true
    seq := { Sequencer.default with state := .standby }
    fault := FaultMemory.afterReset (Vector.replicate 4 SlotMedium.blank) (.value 0) }

/-- The port in a write transfer with the pointer at `a`. -/
def at_ (a : Byte) (s : State) : State := { s with port := { s.port with phase := .writing, pointer := a } }

/-- The host about to write a command code with ARG0. -/
def cmd (arg : Byte) (s : State) : State :=
  { s with port := { s.port with phase := .writing, pointer := 0x09, arg0 := arg, tag := 5 } }

/-- Entry 2 in a state with a configuration. -/
def entry2 (x : EntryState) (c : EntryConfig) (s : State) : State :=
  { s with entries := s.entries.set 2 { Entry.default with state := x, config := c } }

/-- Switch 1 changed. -/
def switch1 (f : Switch → Switch) (s : State) : State := { s with switches := s.switches.set 1 (f s.switches[1]) }

/-- The Sequencer changed. -/
def seq (f : Sequencer → Sequencer) (s : State) : State := { s with seq := f s.seq }

/-- The Scan Unit changed. -/
def scan (f : ScanUnit → ScanUnit) (s : State) : State := { s with scan := f s.scan }

/-- Fault Memory changed. -/
def fault (f : FaultMemory → FaultMemory) (s : State) : State := { s with fault := f s.fault }

/-- An enabled WARN entry on C17, ABOVE, trip 100, recovery 90, that holds switches 0 and 1. -/
def warn : EntryConfig :=
  { EntryConfig.default with enabled := 1, source := 17, trip := 100, recovery := 90, tier := 1, mask := 3, eventClass := 2 }

/-- The same in tier LOCK. -/
def lock : EntryConfig := { warn with tier := 2 }

/-- One step of an up or a down list. -/
def seqStep (settle limit : Half) : SeqStep := { switch := 1, settle := settle, limit := limit }

/-- A header and a body on the medium. -/
def header : LockHeader := { entry := 2, mask := 3, serial := 7 }
def body : LockBody := { captureId := 1, trigger := 120, threshold := 100, companions := [] }

/-- Slot 1 with a view, a medium, and the one work item in flight in a phase. -/
def slot1 (v : SlotView) (d : SlotMedium) (kind : WorkKind) (p : OpPhase) (s : State) : State :=
  fault (fun f => { f with
    slots := f.slots.set 1 v, medium := f.medium.set 1 d, work := [{ kind := kind, slot := 1 }], phase := some p }) s

/-- An event record of a class. -/
def record (c : Fin 4) : EventRecord :=
  { seq := 0, timestamp := 0, kind := .scanOverrun, source := none, detail := 0, cls := c, lossBefore := false }

/-- A capture record. -/
def capture (id : Byte) (pinned : Bool) : CaptureRecord :=
  { id := id, entry := 2, timestamp := 0, frame := 0, trigger := 0, threshold := 0, companions := [], pinned := pinned }

/-- What `exec` answers, read through `f`. -/
def after {α : Type} (c : Instr) (s : State) (f : State → α) : Option α :=
  match exec c s with
  | .next t => some (f t)
  | .fault _ => none
  | .refused _ => none

/-! ### Well-formedness -/

theorem test_wellFormed_refuses_command_codes : (Instr.badCommand 0x10).wellFormed = false ∧
    (Instr.badCommand 0xA5).wellFormed = false ∧ (Instr.badCommand 0x00).wellFormed = true := by decide

theorem test_commandOfCode : commandOfCode true 0x60 = .clearLock true ∧ commandOfCode false 0xA5 = .softReset ∧
    commandOfCode false 0x00 = .badCommand 0x00 := by decide -- R174: the code table

/-! ### Steps (the rule is named beside each) -/

theorem test_scanNow_starts_a_frame :
    after .scanNow (cmd 0 ready) (fun t => (t.scan.scanning, t.scan.frameNumber, t.port.result.detail)) = some (true, 1, 0) := by
  decide +kernel -- R103, R105

theorem test_loadScanList_length_zero :
    after .loadScanList (cmd 0 ready) (fun t => (t.port.result.code, t.port.result.detail)) = some (.badArgument, 1) := by
  decide +kernel -- R99

theorem test_loadChannel_weight :
    after .loadChannel (cmd 17 (scan (fun u => { u with channelStaging := { kind := 2, gain := 0, offset := 0, weight := 8 } })
      ready)) (fun t => (t.port.result.code, t.port.result.detail)) = some (.badArgument, 4) := by
  decide +kernel -- R96

theorem test_clearMinmax_top :
    after .clearMinmax (cmd 22 ready) (fun t => t.port.result.code) = some .badArgument ∧
    after .clearMinmax (cmd 21 ready) (fun t => t.port.result.code) = some .ok := by
  decide +kernel -- R119

theorem test_loadEntry_disabled_passes :
    after .loadEntry (cmd 31 ready) (fun t => (t.port.result.code, t.entries[31].state)) = some (.ok, .off) := by
  decide +kernel -- R13, R17

theorem test_loadEntry_thresholds :
    after .loadEntry (cmd 0 { ready with entryStaging := { warn with recovery := 100 } })
      (fun t => (t.port.result.code, t.port.result.detail)) = some (.badEntry, 6) := by
  decide +kernel -- R13 field 6

theorem test_release_releasable :
    after .release (cmd 2 (entry2 .releasable warn ready)) (fun t => (t.entries[2].state, t.queue.records.map EventRecord.detail)) =
      some (.idle, [2]) := by
  decide +kernel -- R43, R38

theorem test_loadSwitch_timeout_zero :
    after .loadSwitch (cmd 1 { ready with switchStaging := { SwitchConfig.default with enabled := 1, rampTimeout := 1 } })
      (fun t => t.port.result.code) = some .badArgument := by
  decide +kernel -- R52 check 5

theorem test_restartSwitch_failed :
    after .restartSwitch (cmd 1 (switch1 (fun w => { w with state := .failed, demand := true }) ready))
      (fun t => (t.switches[1].state, t.gate 1)) = some (.ramping, true) := by
  decide +kernel -- R59, R60

theorem test_loadSequence_up_length :
    after .loadSequence (cmd 0 ready) (fun t => (t.port.result.code, t.port.result.detail)) = some (.badArgument, 1) := by
  decide +kernel -- R73

theorem test_powerUp_first_step :
    after .powerUp (cmd 0 (seq (fun q => { q with upList := [seqStep 5 100] }) ready))
      (fun t => (t.seq.state, t.seq.stepLimit, t.switches[1].state, t.port.result.code)) =
      some (.poweringUp 0 .waiting, some 100, .ramping, .accepted) := by
  decide +kernel -- R78, R84

theorem test_powerDown_idle : after .powerDown (cmd 0 ready) (fun t => t.port.result.code) = some .seqIdle := by
  decide +kernel -- R86

theorem test_dropCaptures_keeps_pinned :
    after .dropCaptures (cmd 0 { ready with captures := { records := [capture 1 false, capture 0 true], nextId := 2 } })
      (fun t => (t.captures.records.map CaptureRecord.id, t.captures.nextId, t.port.result.detail)) = some ([0], 2, 1) := by
  decide +kernel -- R134

theorem test_clearLock_service :
    after (.clearLock false) (cmd 2 (entry2 .locked lock ready)) (fun t => t.port.result.code) = some .notService ∧
    after (.clearLock true) (cmd 2 (entry2 .locked lock ready)) (fun t => t.entries[2].state) = some .idle := by
  decide +kernel -- R144, R145

theorem test_popEvent_empty : after .popEvent (cmd 0 ready) (fun t => t.port.result.code) = some .queueEmpty := by
  decide +kernel -- R160

theorem test_clearLoss_detail :
    after .clearLoss (cmd 0 { ready with queue := { ready.queue with lossCount := 9 } })
      (fun t => (t.queue.lossCount, t.port.result.detail)) = some (0, 9) := by
  decide +kernel -- R161

theorem test_softReset_keeps_channels :
    after .softReset (cmd 0 (entry2 .idle warn ready)) (fun t => (t.entries[2].state, t.ready, t.scan.period)) =
      some (.off, true, 100) := by
  decide +kernel -- R186

theorem test_badCommand_detail :
    after (.badCommand 0x14) (cmd 0 State.reset) (fun t => (t.port.result.code, t.port.result.tag, t.port.result.detail)) =
      some (.badCommand, 5, 0x14) := by
  decide +kernel -- R174

theorem test_alertLevel_above_four :
    after (.alertLevelWrite 5) (at_ 0x0D ready) (fun t => t.queue.alertLevel) = some 0 ∧
    after (.alertLevelWrite 4) (at_ 0x0D ready) (fun t => t.queue.alertLevel) = some 4 := by
  decide +kernel -- R164

theorem test_scanMode_timed_starts_the_timer :
    after (.scanModeWrite 1) (at_ 0x11 ready) (fun t => (t.scan.mode, t.scan.frameTimer)) = some (.timed, some 100) := by
  decide +kernel -- R101

theorem test_framePeriod_low_is_held :
    after (.framePeriodLowWrite 0x2C) (at_ 0x12 ready) (fun t => (t.port.heldLow, t.scan.period)) = some (some 0x2C, 100) := by
  decide +kernel -- R173

theorem test_framePeriod_high_completes :
    after (.framePeriodHighWrite 1) (at_ 0x13 { ready with port := { ready.port with heldLow := some 0x2C } })
      (fun t => (t.port.heldLow, t.scan.period)) = some (none, 300) := by
  decide +kernel -- R173

theorem test_registerWrite_part :
    after (.registerWrite 4) (at_ 0x1E ready) (fun t => (t.port.part, t.port.pointer)) = some (0, 0x1F) ∧
    after (.registerWrite 2) (at_ 0x1E ready) (fun t => (t.port.part, t.port.pointer)) = some (2, 0x1F) := by
  decide +kernel -- R172

theorem test_pointerWrite :
    after (.pointerWrite 0x40) { ready with port := { ready.port with phase := .pointerNext } }
      (fun t => (t.port.pointer, t.port.phase)) = some (0x40, .writing) := by
  decide +kernel -- R168

theorem test_addressByte_own_and_other :
    after (.addressByte 0xB0) ready (fun t => (t.port.acked, t.port.phase)) = some (true, .pointerNext) ∧
    after (.addressByte 0xB3) ready (fun t => (t.port.acked, t.port.phase)) = some (false, .waiting) := by
  decide +kernel -- R167: 0x58 with write; 0x59 is another part's

theorem test_fieldSnapshot_frame_number :
    after (.fieldSnapshot false true)
      (scan (fun u => { u with frameNumber := 0x01020304 })
        { ready with port := { ready.port with phase := .reading, pointer := 0x14 } })
      (fun t => (t.port.served, t.port.snapshot.map Snapshot.bytes)) = some (0x04, some [4, 3, 2, 1]) := by
  decide +kernel -- R170, R172

theorem test_dataByteServed_status :
    after (.dataByteServed true false) { ready with port := { ready.port with phase := .reading, pointer := 0x02 } }
      (fun t => (t.port.served, t.port.phase)) = some (0x23, .readEnded) := by
  decide +kernel -- R172: ready, SERVICE, STANDBY in bits 7 to 5

theorem test_transferEnd_keeps_pointer :
    after .transferEnd (at_ 0x55 ready) (fun t => (t.port.phase, t.port.pointer)) = some (.waiting, 0x55) := by
  decide +kernel -- R168, R170

theorem test_transferTimeout :
    after .transferTimeout (at_ 0x55 ready) (fun t => t.port.phase) = some .waiting := by
  decide +kernel -- R171

theorem test_resets_are_one_event :
    after .powerOnReset (entry2 .locked lock ready) (fun t => (t.inReset, t.entries[2].state)) = some (true, .off) ∧
    after .pinReset (entry2 .locked lock ready) (fun t => (t.inReset, t.entries[2].state)) = some (true, .off) := by
  decide +kernel -- R182

theorem test_resetEnd_address :
    after (.resetEnd true true false) { State.reset with inReset := true } (fun t => (t.port.address, t.fault.restore)) =
      some (0x5B, some 0) := by
  decide +kernel -- R167, R182

theorem test_restoreSlotSettled_valid :
    after .restoreSlotSettled
      (fault (fun f => { f with medium := f.medium.set 0 { header := .whole header, body := .partly, mark := .blank } })
        State.reset)
      (fun t => (t.fault.slots[0], t.switches[1].holds, t.queue.records.map EventRecord.detail)) =
      some (.valid header none, 0x100000000, [0x102]) := by
  decide +kernel -- R148, R175

theorem test_restoreComplete_ready :
    after .restoreComplete (fault (fun f => { f with restore := some 4 }) State.reset)
      (fun t => (t.ready, t.seq.state, t.queue.records.map EventRecord.kind)) = some (true, .standby, [.deviceReady]) := by
  decide +kernel -- R183

theorem test_restoreComplete_most_recent_serial :
    after .restoreComplete
      (fault (fun f => { f with
        restore := some 4
        serialWord := .failing
        medium := (f.medium.set 0 { SlotMedium.blank with header := .whole { header with serial := 0xFFFF } }).set 1
          { SlotMedium.blank with header := .whole { header with serial := 1 } } }) State.reset)
      (fun t => t.fault.serialWord) = some (.value 1) := by
  decide +kernel -- R148: 0xFFFF is followed by 0 and then the carried 1; 1 is followed by the longest run

theorem test_tripFilterAssert :
    after (.tripFilterAssert false) (switch1 (fun w => { w with config := { w.config with tripResponse := 1 } }) ready)
      (fun t => (t.trip.seen, t.switches[1].holds, t.switches[0].holds, t.queue.records.map EventRecord.cls)) =
      some (true, 0x1000000000, 0, [3]) := by
  decide +kernel -- R68

theorem test_tripFilterRelease :
    after .tripFilterRelease { ready with trip := { seen := true, lowAtResetEnd := false } }
      (fun t => (t.trip.seen, t.queue.records.map EventRecord.kind)) = some (false, [.tripLineReleased]) := by
  decide +kernel -- R68

theorem test_syncEdge_needs_sync_mode :
    after .syncEdge ready (fun t => t.scan.scanning) = some false ∧
    after .syncEdge (scan (fun u => { u with mode := .sync }) ready) (fun t => t.scan.scanning) = some true := by
  decide +kernel -- R103

theorem test_scanNow_takes_an_unknown_operation_as_the_default :
    after .scanNow (cmd 0 { ready with
      derivedWritten := (ready.derivedWritten.set 0 { op := 6, a := 3, b := 4, weight := 1 }).set 1
        { op := 5, a := 17, b := 4, weight := 1 } })
      (fun t => (t.derivedInForce[0], t.derivedInForce[1])) =
        some ({ op := .none, a := 0, b := 0, weight := 0 }, { op := .minOf, a := 17, b := 4, weight := 1 }) := by
  decide +kernel -- R121, R178

theorem test_frameTimerExpiry_keeps_the_spacing :
    after .frameTimerExpiry (scan (fun u => { u with mode := .timed, frameTimer := some 5, period := 15 }) ready)
      (fun t => (t.scan.scanning, t.scan.frameTimer)) = some (true, some 20) := by
  decide +kernel -- R102: due 0.5 ms after the last tick, and next 1.5 ms later

theorem test_frameTimerExpiry_waits_for_the_tick :
    after .frameTimerExpiry (scan (fun u => { u with mode := .timed, frameTimer := some 10, period := 10 }) ready)
      (fun t => (t.scan.scanning, t.scan.frameTimer)) = some (false, some 10) := by
  decide +kernel -- R102; log 8

theorem test_scanStepSample_waits_for_completion :
    after (.scanStepSample 1 2 3) (scan (fun u => { u with scanning := true }) ready)
      (fun t => (t.scan.sampled, t.records[17].valid)) = some (some { a := 1, b := 2, c := 3 }, false) := by
  decide +kernel -- R106

theorem test_scanStepComplete_updates :
    after .scanStepComplete
      (scan (fun u => { u with scanning := true, sampled := some { a := 1, b := 2, c := 300 }, frameNumber := 9 }) ready)
      (fun t => (t.records[17].latest, t.records[17].sampleFrame, t.records[0].valid, t.scan.scanning)) =
      some (300, 9, false, false) := by
  decide +kernel -- R114, R115, R107

theorem test_dwellExpiry_qualifies :
    after (.dwellExpiry 2)
      { ready with
        entries := ready.entries.set 2
          { Entry.default with
            state := .pending, config := warn, dwellTimer := some 0
            dwellRecord := some { value := 120, threshold := 100, frame := 4 } } }
      (fun t => (t.entries[2].state, t.entries[2].assertions, t.switches[1].holds, t.captures.records.map CaptureRecord.trigger)) =
      some (.asserted, 1, 4, [120]) := by
  decide +kernel -- R28, R30

theorem test_recoveryExpiry_returns :
    after (.recoveryExpiry 2)
      { ready with entries := ready.entries.set 2 { Entry.default with state := .recovering, config := warn, recoveryTimer := some 0 } }
      (fun t => (t.entries[2].state, t.queue.records.map EventRecord.detail)) = some (.idle, [1]) := by
  decide +kernel -- R40

/-- Switch 1 RAMPING, its ramp timer run out. -/
def rampOut : State := switch1 (fun w => { w with state := .ramping, demand := true, rampTimer := some 0 }) ready

theorem test_rampTimerExpiry_fails :
    after (.rampTimerExpiry 1) rampOut
      (fun t => (t.switches[1].state, t.gate 1, t.queue.records.map EventRecord.kind)) = some (.failed, false, [.switchRampFail]) := by
  change some ((rampExpiry 1 rampOut).switches[1].state, (rampExpiry 1 rampOut).gate 1,
    (rampExpiry 1 rampOut).queue.records.map EventRecord.kind) = _
  rcases rampExpiry_cases (s := rampOut) (i := 1) rfl rfl with h | h <;> rw [h] <;> decide +kernel -- R57, whenever the Sequencer takes the message

/-- Powering up, in step 0. -/
def poweringUp (p : StepPhase) : State :=
  seq (fun q => { q with
    state := .poweringUp 0 p, upList := [seqStep 5 100], downList := [seqStep 5 0], stepLimit := some 0, settle := some 0 }) ready

/-- Powering down, in step 0. -/
def poweringDown (p : StepPhase) (settle : Half) : State :=
  seq (fun q => { q with
    state := .poweringDown 0 p .host, upList := [seqStep 5 100], downList := [seqStep settle 0], discharge := some 0
    settle := some 0 }) ready

theorem test_stepLimitExpiry_powers_down :
    after .stepLimitExpiry (poweringUp .waiting) (fun t => (t.seq.outcome, t.seq.state.code)) = some (.abortTimeout 0, 4) := by
  decide +kernel -- R79

/-- Switch 1 FAILED in up step 0, and its message on its way. -/
def failureSent : State :=
  switch1 (fun w => { w with state := .failed, demand := true }) (seq (fun q => { q with failed := [1] }) (poweringUp .waiting))

theorem test_stepLimitExpiry_before_the_failure_is_told :
    after .stepLimitExpiry failureSent (fun t => (t.seq.outcome, t.takeFailures.seq.outcome, t.takeFailures.seq.failed)) =
      some (.abortTimeout 0, .abortTimeout 0, []) := by
  decide +kernel -- R80: the message then has no effect

theorem test_timeBaseTick_tells_the_failure :
    after .timeBaseTick failureSent (fun t => (t.seq.outcome, t.seq.stepLimit, t.seq.failed)) = some (.abortRamp 1, none, []) := by
  decide +kernel -- R80, R89; log 26

theorem test_dischargeTimerExpiry_goes_on :
    after .dischargeTimerExpiry (poweringDown .waiting 5) (fun t => (t.seq.state, t.seq.settle)) =
      some (.poweringDown 0 .settling .host, some 5) := by
  decide +kernel -- R82

theorem test_settleTimerExpiry_ends_the_up_list :
    after .settleTimerExpiry (poweringUp .settling) (fun t => (t.seq.state, t.seq.outcome)) = some (.running, .upDone) := by
  decide +kernel -- R77, R85

/-- A WRITING slot's program in a phase. -/
def programming (p : OpPhase) : State := slot1 (.writing 2 3 (some 8) body) SlotMedium.blank .program p ready

/-- An ERASING slot's erase in a phase. -/
def erasing (p : OpPhase) : State :=
  slot1 (.erasing header (some body)) { header := .whole header, body := .whole body, mark := .blank } .erase p ready

theorem test_programPhaseEnd_serial :
    after .programPhaseEnd (programming .serial) (fun t => (t.fault.serialWord, t.fault.phase)) = some (.value 8, some .header) := by
  decide +kernel -- R141

theorem test_programComplete_valid :
    after .programComplete (programming .body) (fun t => (t.fault.slots[1].code, t.switches[1].holds, t.fault.work)) =
      some (2, 0x200000000, []) := by
  decide +kernel -- R141

theorem test_erasePhaseEnd_mark :
    after .erasePhaseEnd (erasing .mark) (fun t => (t.fault.medium[1].mark, t.fault.phase)) = some (.whole (), some .clear) := by
  decide +kernel -- R142

theorem test_eraseComplete_only_after_unmark :
    after .eraseComplete (erasing .clear) (fun t => (t.fault.slots[1].code, t.fault.phase, t.queue.records)) =
      some (3, some .clear, []) := by
  decide +kernel -- R142, log 11

theorem test_cleanupEraseComplete :
    after .cleanupEraseComplete (slot1 (.empty true) { SlotMedium.blank with mark := .partly } .cleanup .unmark ready)
      (fun t => (t.fault.slots[1], t.fault.medium[1], t.queue.records)) = some (.empty false, SlotMedium.blank, []) := by
  decide +kernel -- R142, R149

theorem test_timeBaseTick_wraps :
    after .timeBaseTick { ready with timestamp := 0xFFFFFFFF } (fun t => t.timestamp) = some 0 := by
  decide +kernel -- R127

/-- The messages of an erase completion on their way, for entry 2. -/
def sent (l : List ClearMessage) (s : State) : State := fault (fun f => { f with sent := l }) s

theorem test_clearLock_before_the_engine_is_told :
    after (.clearLock true) (cmd 2 (sent [.engine 2] (entry2 .locked lock ready)))
      (fun t => (t.port.result.code, t.entries[2].state, t.queue.records.map EventRecord.detail)) = some (.ok, .idle, [3]) ∧
    after .timeBaseTick (sent [.engine 2] (entry2 .idle lock ready))
      (fun t => (t.entries[2].state, t.queue.records, t.fault.sent)) = some (.idle, [], []) := by
  decide +kernel -- R146: accepted; the message then has no effect

theorem test_unpin_takes_the_oldest :
    after .timeBaseTick (sent [.store 2] { ready with captures := { records := [capture 2 true, capture 1 true], nextId := 3 } })
      (fun t => t.captures.records.map CaptureRecord.pinned) = some [true, false] := by
  decide +kernel -- R133: of two pinned records of the entry, the older

theorem test_good_check_waits_for_a_new_sample :
    (Message.watch 0 1 true).after ready (switch1 (fun w => { w with state := .ramping }) ready) = .watch 0 1 false ∧
    (({ switch1 (fun w => { w with state := .ramping }) ready with
      records := ready.records.set 0 { MeasRecord.default with valid := true } } : State).watch 0 1 false).switches[1].state =
      .ramping := by
  decide +kernel -- R56

theorem test_empty_slot_shows_state_and_cleanup_alone :
    (slot1 (.empty true) SlotMedium.blank .cleanup .mark ready).pageByte 0x4F 0 0x01 = 0x01 := by
  decide +kernel -- R150

/-! ### Witnesses: states and operands that meet the hypotheses of each statement, clause by clause -/

/-- A part held in reset. -/
def held : State := State.heldInReset (Vector.replicate 4 SlotMedium.blank) (.value 0)

theorem cmd_taken (arg : Byte) {s : State} (h : s.inReset = false) : (cmd arg s).commandTaken := ⟨h, rfl, rfl⟩

theorem at_taken (a : Byte) {s : State} (h : s.inReset = false) : (at_ a s).byteTakenAt a := ⟨h, rfl, rfl⟩

theorem witness_StepTakesTheFrontCommand :
    { ready with pending := [.popEvent] }.pending = .popEvent :: [] ∧ ready.pending = [] := ⟨rfl, rfl⟩

theorem witness_InterruptedWritesOnTheMedium :
    ready.fault.phaseOf 1 = none ∧ (programming .serial).fault.phaseOf 1 = some .serial ∧
    (programming .header).fault.phaseOf 1 = some .header ∧ (programming .body).fault.phaseOf 1 = some .body ∧
    (erasing .mark).fault.phaseOf 1 = some .mark ∧ (erasing .clear).fault.phaseOf 1 = some .clear ∧
    (erasing .unmark).fault.phaseOf 1 = some .unmark ∧ (∃ k, (programming .serial).fault.phaseOf k = some .serial) ∧
    ¬(∃ k, ready.fault.phaseOf k = some .serial) := by
  decide +kernel

theorem witness_ResetHoldsAndEnds :
    held.inReset = true ∧ ready.inReset = false ∧ Instr.popEvent ≠ .powerOnReset ∧ Instr.popEvent ≠ .pinReset ∧
    ∀ a b c, Instr.popEvent ≠ .resetEnd a b c := by
  decide +kernel

/-- A part whose restore is at slot 0 with a medium there. -/
def restoring (d : SlotMedium) : State := fault (fun f => { f with medium := f.medium.set 0 d }) State.reset

theorem witness_RestoreSettlesASlot :
    (restoring SlotMedium.blank).inReset = false ∧ (restoring SlotMedium.blank).fault.restore = some (0 : Fin 4).val ∧
    (restoring { SlotMedium.blank with mark := .partly }).fault.medium[0].mark ≠ .blank ∧
    (restoring { header := .whole header, body := .whole body, mark := .blank }).fault.medium[0] =
      { header := .whole header, body := .whole body, mark := .blank } ∧
    (∀ b, (restoring { SlotMedium.blank with header := .whole header }).fault.medium[0].body ≠ .whole b) ∧
    (∀ h, (restoring { SlotMedium.blank with header := .partly }).fault.medium[0].header ≠ .whole h) ∧
    (restoring { SlotMedium.blank with header := .partly }).fault.medium[0].header = .partly ∧
    (restoring SlotMedium.blank).fault.medium[0].header = .blank ∧
    (restoring SlotMedium.blank).fault.medium[0].body = .blank :=
  ⟨rfl, rfl, by decide +kernel, rfl, (fun _ h => by cases h), (fun _ h => by cases h), rfl, rfl, rfl⟩

/-- A part whose restore has settled every slot. -/
def settled (w : SerialWord) (d : SlotMedium) : State :=
  fault (fun f => { f with restore := some 4, serialWord := w, medium := f.medium.set 3 d }) State.reset

theorem witness_RestoreCompletion :
    (settled (.value 3) SlotMedium.blank).inReset = false ∧ (settled (.value 3) SlotMedium.blank).fault.restore = some 4 ∧
    (settled (.value 3) SlotMedium.blank).fault.serialWord = .value 3 ∧
    (∀ i ∈ (settled (.value 3) SlotMedium.blank).fault.work, i.kind = .cleanup) ∧
    (settled .failing SlotMedium.blank).fault.restore = some 4 ∧
    (settled .failing SlotMedium.blank).fault.serialWord = .failing ∧
    (∀ k : Fin 4, (settled .failing SlotMedium.blank).fault.medium[k].header = .blank) ∧
    (settled .failing { SlotMedium.blank with header := .whole header }).fault.medium[3].header = .whole header ∧
    State.reset.inReset = false ∧ State.reset.fault.restore = some 0 ∧
    (fault (fun f => { f with restore := some 3 }) State.reset).fault.restore = some 3 ∧ ready.fault.restore = none := by
  decide +kernel

theorem witness_TransferFraming :
    ready.inReset = false ∧ (0xB1 : Byte).extractLsb' 1 7 = ready.port.address ∧
    (0xB2 : Byte).extractLsb' 1 7 ≠ ready.port.address ∧
    { ready.port with phase := .pointerNext }.phase = .pointerNext ∧ (at_ 0 ready).port.phase ≠ .waiting := by
  decide +kernel

/-- The port in a read transfer with the pointer at `a` and a snapshot. -/
def reading (a : Byte) (x : Option Snapshot) : State :=
  { ready with port := { ready.port with phase := .reading, pointer := a, snapshot := x } }

theorem witness_ServedBytes :
    (reading 0x04 none).inReset = false ∧ (reading 0x04 none).port.phase = .reading ∧
    (reading 0x04 none).port.fieldLength 0x04 = some 4 ∧ (reading 0x20 none).port.fieldLength 0x20 = some 32 ∧
    (reading 0x0D none).port.fieldLength 0x0D = none ∧ (reading 0x0D none).port.snapshot = none ∧
    (reading 0x07 (some { base := 0x04, bytes := [1, 2, 3, 4] })).port.fieldLength 0x07 = none ∧
    (reading 0x07 (some { base := 0x04, bytes := [1, 2, 3, 4] })).port.pointer = (0x04 : Byte) + BitVec.ofNat 8 3 := by
  decide +kernel

/-- Addresses at both sides of each bound of the clauses of `WindowBytes` and `ReadbackPages`. -/
theorem witness_WindowBytes_and_ReadbackPages :
    0x3F < 0x40 ∧ 0x80 ≤ 0x80 ∧ 7 < 8 ∧ 0x53 ≤ 0x53 ∧ 3 ≤ 3 ∧ (0 < 1 ∧ 0x40 ≠ 0x41 ∧ 0x40 ≠ 0x42 ∧ 0x40 ≠ 0x43) ∧
    (2 = 2 ∧ 0x42 ≠ 0x43) ∧ 63 < 64 := by decide

theorem witness_GlobalRegisterWrites (a : Byte) : (at_ a ready).byteTakenAt a := at_taken a rfl

/-- Bytes at both sides of each bound of the clauses of `GlobalRegisterWrites`. -/
theorem witness_GlobalRegisterWrites_bounds :
    (3 : Byte).toNat ≤ 3 ∧ 3 < (4 : Byte).toNat ∧ (0x20 ≤ (0x3F : Byte).toNat ∧ (0x3F : Byte).toNat < 0x40) ∧
    0x80 ≤ (0x80 : Byte).toNat := by decide

theorem witness_PagedWritesReadBack :
    (at_ 0x7F { ready with port := { ready.port with page := 0x43, part := 1 } }).byteTakenAt 0x7F ∧
    (0x7F : Byte).toNat = 0x40 + 63 ∧ (at_ 0x4B ready).byteTakenAt 0x4B ∧ (0x4B : Byte).toNat = 0x40 + 0x0B ∧
    ∃ t, exec (.registerWrite 1) (at_ 0x4B ready) = .next t :=
  ⟨at_taken _ rfl, rfl, at_taken _ rfl, rfl, _, rfl⟩

theorem witness_TransfersActOnNothingElse :
    (∃ t, exec (.fieldSnapshot false true) (reading 0x04 none) = .next t) ∧
    (∃ t, exec .transferEnd (reading 0x04 none) = .next t) ∧ ∃ t, exec (.registerWrite 1) (at_ 0x40 ready) = .next t :=
  ⟨⟨_, rfl⟩, ⟨_, rfl⟩, ⟨_, rfl⟩⟩

theorem witness_CommandCodesAndRefusals :
    (cmd 0 State.reset).commandTaken ∧ State.reset.ready = false ∧
    (0x00 : Byte) ∉ ([0x10, 0x11, 0x12, 0x13, 0x20, 0x21, 0x30, 0x31, 0x40, 0x41, 0x42, 0x50, 0x60, 0x70, 0x71, 0xA5] : List Byte) ∧
    (0xFF : Byte) ∉ ([0x10, 0x11, 0x12, 0x13, 0x20, 0x21, 0x30, 0x31, 0x40, 0x41, 0x42, 0x50, 0x60, 0x70, 0x71, 0xA5] : List Byte) ∧
    after (commandOfCode true 0x10) (cmd 0 State.reset) (fun t => t.port.result.code) = some .notReady ∧
    (at_ 0x11 State.reset).byteTakenAt 0x11 ∧ (at_ 0x12 State.reset).byteTakenAt 0x12 ∧
    (at_ 0x13 State.reset).byteTakenAt 0x13 :=
  ⟨cmd_taken 0 rfl, rfl, by decide, by decide, by decide +kernel, at_taken _ rfl, at_taken _ rfl, at_taken _ rfl⟩

/-- The Scan Unit in a mode, in a frame or not, with the trigger flag. -/
def scanning (m : ScanMode) (busy flag : Bool) : State :=
  scan (fun u => { u with
    mode := m, scanning := busy, pendingTrigger := flag, frameTimer := if m = .timed then some 9 else none }) ready

theorem witness_TriggersTaken :
    (cmd 0 (scanning .stopped false false)).commandTaken ∧ (cmd 0 (scanning .stopped true true)).commandTaken ∧
    ready.ready = true ∧ (scanning .sync true false).scan.mode = .sync ∧
    (scanning .sync true true).scan.pendingTrigger = true ∧ (scanning .stopped true true).scan.mode ≠ .sync ∧
    (scanning .timed false false).scan.frameTimer = some 9 ∧ 10 ≤ (scanning .timed false false).scan.period.toNat ∧
    (scan (fun u => { u with frameTimer := some 10 }) ready).scan.frameTimer = some 10 ∧ ready.scan.frameTimer = none ∧
    (∃ t, exec .frameTimerExpiry (scanning .timed false false) = .next t) ∧ (scanning .timed true false).scan.scanning = true ∧
    (scanning .timed true true).scan.pendingTrigger = true ∧ ready.inReset = false :=
  ⟨cmd_taken 0 rfl, cmd_taken 0 rfl, rfl, rfl, rfl, by decide +kernel, rfl, by decide +kernel, rfl, rfl, ⟨_, rfl⟩, rfl, rfl, rfl⟩

/-- Slot 1 VALID for entry 2; entry 2 IDLE with a load of tier LOCK pending, entry 3 ASSERTED with one pending; a list and a
channel load pending. -/
def loading : State :=
  scan (fun u => { u with pendingList := some resetScanList, pendingChannel := some (17, ChannelConfig.voltage) })
    { fault (fun f => { f with slots := f.slots.set 1 (.valid header (some body)) }) ready with
      entries := (ready.entries.set 2 { Entry.default with state := .idle, pendingLoad := some lock }).set 3
        { Entry.default with state := .asserted, pendingLoad := some warn } }

theorem witness_PendingLoadsDealtWith :
    (∃ t, t = (if true then loading.frameStart else loading.becomeQuiet)) ∧
    loading.entries[2].pendingLoad = some lock ∧ loading.entries[2].state.active = false ∧
    (lock.enabled ≠ 0 ∧ lock.tier = 2 ∧ ∃ k : Fin 4, loading.fault.slots[k].names = some 2) ∧
    loading.entries[3].pendingLoad = some warn ∧ loading.entries[3].state.active = true ∧
    loading.entries[4].pendingLoad = none ∧ loading.scan.pendingList.isSome = true ∧
    (0 : Fin 18) ∉ listChannels resetScanList ∧ loading.scan.pendingChannel.map Prod.fst = some 17 :=
  ⟨⟨_, rfl⟩, by decide +kernel⟩

theorem witness_ScanUnitLoads :
    (cmd 17 (scanning .stopped false false)).commandTaken ∧ (cmd 17 ready).ready = true ∧
    (cmd 17 ready).port.arg0.toNat = (17 : Fin 18).val ∧ 17 < (cmd 18 ready).port.arg0.toNat ∧
    (cmd 17 ready).scan.pendingChannel = none ∧ (cmd 17 ready).scan.channelStaging.kind = ChannelKind.voltage.code ∧
    (cmd 17 ready).scan.quiet = true ∧ (cmd 17 (scanning .sync false false)).scan.quiet = false ∧
    (scan (fun u => { u with pendingChannel := some (0, ChannelConfig.voltage) }) ready).scan.pendingChannel ≠ none ∧
    2 < (3 : Byte).toNat ∧ 7 < (8 : Byte).toNat :=
  ⟨cmd_taken _ rfl, rfl, rfl, by decide, rfl, rfl, rfl, rfl, by decide +kernel, by decide, by decide⟩

theorem witness_ScanRegisterWrites :
    (at_ 0x11 ready).byteTakenAt 0x11 ∧ (at_ 0x12 ready).byteTakenAt 0x12 ∧ (at_ 0x13 ready).byteTakenAt 0x13 ∧
    ready.ready = true ∧ 2 < (3 : Byte).toNat ∧ (0 : Byte) = ready.scan.mode.code ∧ ready.scan.mode ≠ .timed ∧
    ready.scan.mode ≠ .sync ∧ (scanning .timed true false).scan.mode ≠ .stopped ∧
    (scanning .timed true false).scan.scanning = true ∧ (scanning .timed false false).scan.scanning = false ∧
    256 * (0 : Byte).toNat + 9 < 10 ∧ 10 ≤ 256 * (0 : Byte).toNat + 10 :=
  ⟨at_taken _ rfl, at_taken _ rfl, at_taken _ rfl, rfl, by decide, rfl, by decide +kernel, by decide +kernel,
    by decide +kernel, rfl, rfl, by decide, by decide⟩

/-- A part with record 21 valid. -/
def valid21 : State := { ready with records := ready.records.set 21 { MeasRecord.default with valid := true } }

theorem witness_ClearMinmaxResults :
    (cmd 0 State.reset).commandTaken ∧ (cmd 0 State.reset).ready = false ∧ (cmd 22 ready).commandTaken ∧
    21 < (cmd 22 ready).port.arg0.toNat ∧ (cmd 21 valid21).commandTaken ∧
    (cmd 21 valid21).port.arg0.toNat = (21 : Fin 22).val ∧ (cmd 21 valid21).records[21].valid = true ∧
    (cmd 21 ready).records[21].valid = false :=
  ⟨cmd_taken 0 rfl, rfl, cmd_taken 22 rfl, by decide, cmd_taken 21 rfl, rfl, rfl, rfl⟩

/-- A scan of one step, sampled, in a mode and with the trigger flag. -/
def lastStep (m : ScanMode) (flag : Bool) : State :=
  scan (fun u => { u with sampled := some { a := 1, b := 2, c := 3 } }) (scanning m true flag)

/-- A scan of a list of two steps, sampled in the first. -/
def twoSteps : State :=
  scan (fun u => { u with
    scanning := true
    sampled := some { a := 1, b := 2, c := 3 }
    list := [{ a := some 0, b := some 6, c := some 12, settle := 0 }, { a := none, b := none, c := some 17, settle := 0 }] })
    ready

theorem witness_StepSamplesAndUpdates :
    twoSteps.inReset = false ∧ twoSteps.scan.scanning = true ∧ (scanning .stopped true false).scan.sampled = none ∧
    twoSteps.scan.sampled = some { a := 1, b := 2, c := 3 } ∧
    twoSteps.scan.list[twoSteps.scan.stepIndex]? = some { a := some 0, b := some 6, c := some 12, settle := 0 } ∧
    ({ a := some 0, b := some 6, c := some 12, settle := 0 } : ScanStep).channels.Nodup ∧
    twoSteps.scan.stepIndex + 1 < twoSteps.scan.list.length ∧
    (lastStep .timed false).scan.list[(lastStep .timed false).scan.stepIndex]? =
      some { a := none, b := none, c := some 17, settle := 0 } ∧
    (lastStep .timed false).scan.stepIndex + 1 = (lastStep .timed false).scan.list.length ∧
    (lastStep .timed false).scan.pendingTrigger = false ∧ (lastStep .timed false).scan.mode ≠ .stopped := by
  decide +kernel

/-- A scan of C0 alone in the first of two steps. -/
def oneChannel (s : State) : State :=
  scan (fun u => { u with
    scanning := true
    sampled := some { a := 1, b := 2, c := 3 }
    list := [{ a := some 0, b := none, c := none, settle := 0 }, { a := none, b := none, c := some 17, settle := 0 }] }) s

/-- Every switch on C5, but switch 1 on C0, RAMPING. -/
def oneSwitch : State :=
  oneChannel { ready with
    switches := Vector.ofFn fun i =>
      { Switch.default with
        state := if i = 1 then .ramping else .off
        config := { SwitchConfig.default with goodChannel := if i = 1 then 0 else 5 } } }

/-- Every switch on C5, and entry 2 alone in force, on C0. -/
def oneEntry : State :=
  oneChannel { entry2 .idle { warn with source := 0 } ready with
    switches := Vector.replicate 8 { Switch.default with config := { SwitchConfig.default with goodChannel := 5 } } }

/-- Switches 1 and 2 on C0: switch 1 RAMPING in up step 0, and switch 2, OFF, in up step 1. -/
def twoSwitches : State :=
  oneChannel (seq (fun q => { q with
    state := .poweringUp 0 .waiting, upList := [seqStep 0 100, { switch := 2, settle := 0, limit := 0 }] })
    { ready with
      switches := Vector.ofFn fun i =>
        { Switch.default with
          state := if i = 1 then .ramping else .off
          config := { SwitchConfig.default with goodChannel := if i = 1 ∨ i = 2 then 0 else 5 } } })

theorem witness_SamplesReachTheirWatchers_of_two :
    ({ a := some 0, b := none, c := none, settle := 0 } : ScanStep).channels = [0] ∧ (1 : Fin 8) ≠ 2 ∧
    (∀ n : Fin 32, ¬(twoSwitches.entries[n].config.source.toNat = 0 ∧ twoSwitches.entries[n].state ≠ .off)) ∧
    (∀ k : Fin 8, twoSwitches.switches[k].config.goodChannel.toNat = 0 ↔ k = 1 ∨ k = 2) ∧
    twoSwitches.switches[1].state = .ramping ∧ twoSwitches.switches[1].config.goodThreshold.toInt ≤ 1 ∧
    (MeasRecord.default.sample (ChannelConfig.voltage.convert 1) 0 0).latest.toInt = 1 ∧
    twoSwitches.seq.state = .poweringUp 0 .waiting ∧ twoSwitches.seq.upList[0]? = some (seqStep 0 100) ∧
    twoSwitches.seq.upList[0 + 1]? = some { switch := 2, settle := 0, limit := 0 } ∧ twoSwitches.switches[2].state = .off ∧
    twoSwitches.switches[2].demand = false ∧ twoSwitches.switches[2].holds = 0 ∧ twoSwitches.seq.failed = [] := by
  decide +kernel

theorem witness_SamplesReachTheirWatchers :
    oneSwitch.scan.list[oneSwitch.scan.stepIndex]? = some { a := some 0, b := none, c := none, settle := 0 } ∧
    ({ a := none, b := none, c := some 17, settle := 0 } : ScanStep).channels = [17] ∧
    (∀ n : Fin 32, ¬(oneSwitch.entries[n].config.source.toNat = 0 ∧ oneSwitch.entries[n].state ≠ .off)) ∧
    (∀ j : Fin 8, oneSwitch.switches[j].config.goodChannel.toNat = 0 ↔ j = 1) ∧
    (∀ n : Fin 32, (oneEntry.entries[n].config.source.toNat = 0 ∧ oneEntry.entries[n].state ≠ .off) ↔ n = 2) ∧
    (∀ j : Fin 8, ¬oneEntry.switches[j].config.goodChannel.toNat = 0) := by
  decide +kernel

theorem witness_FrameEndTaken :
    (lastStep .stopped false).inReset = false ∧ (lastStep .stopped false).scan.scanning = true ∧
    (lastStep .stopped false).scan.sampled = some { a := 1, b := 2, c := 3 } ∧
    (lastStep .stopped false).scan.list.length ≤ (lastStep .stopped false).scan.stepIndex + 1 ∧
    (lastStep .sync true).scan.pendingTrigger = true ∧ (lastStep .stopped false).scan.pendingTrigger = false ∧
    (lastStep .stopped false).scan.mode = .stopped ∧ (lastStep .timed false).scan.mode ≠ .stopped := by
  decide +kernel

/-- Derived channel 0 as the sum of C0 and C1, whose records are valid or not. -/
def derived (v : Bool) : State :=
  { ready with
    derivedInForce := ready.derivedInForce.set 0 { op := .sum, a := 0, b := 1, weight := 0 }
    records := ready.records.map fun m => { m with valid := v } }

theorem witness_DerivedChannelAtFrameEnd :
    ((lastStep .sync false).inReset = false ∧ (lastStep .sync false).scan.scanning = true ∧
      (lastStep .sync false).scan.sampled = some { a := 1, b := 2, c := 3 } ∧
      (lastStep .sync false).scan.stepIndex + 1 = (lastStep .sync false).scan.list.length ∧
      (lastStep .sync false).scan.pendingTrigger = false ∧ (lastStep .sync false).scan.mode ≠ .stopped) ∧
    ready.derivedInForce[0].op = .none ∧ (derived true).derivedInForce[0].op ≠ .none ∧
    (derived true).derivedInForce[0].a.toNat = (0 : Fin 18).val ∧
    (derived true).derivedInForce[0].b.toNat = (1 : Fin 18).val ∧
    ((derived true).records[channelSource 0].valid = true ∧ (derived true).records[channelSource 1].valid = true ∧
      (derived true).records[channelSource 0].sampleFrame = (derived true).scan.frameNumber ∧
      (derived true).records[channelSource 1].sampleFrame = (derived true).scan.frameNumber) ∧
    (∀ ch : Fin 18, (derived false).records[channelSource ch].valid = false) ∧
    (derived true).records[derivedSource 0].valid = true ∧
    (∀ d : Fin 4, d ≠ 0 → (derived true).derivedInForce[d].op = .none) ∧
    (∀ n : Fin 32, (derived true).entries[n].state = .off) ∧
    ∀ n : Fin 32, ((entry2 .idle { warn with source := 18 } (derived true)).entries[n].config.source.toNat = 18 ∧
      (entry2 .idle { warn with source := 18 } (derived true)).entries[n].state ≠ .off) ↔ n = 2 := by
  decide +kernel

theorem witness_EntryValidation : EntryConfig.default.enabled = 0 ∧ warn.enabled ≠ 0 := by decide

theorem witness_EntryLoadChecks :
    (cmd 32 ready).commandTaken ∧ (cmd 32 ready).ready = true ∧ 31 < (cmd 32 ready).port.arg0.toNat ∧
    (cmd 31 ready).commandTaken ∧ (cmd 31 ready).port.arg0.toNat = (31 : Fin 32).val :=
  ⟨cmd_taken _ rfl, rfl, by decide, cmd_taken _ rfl, rfl⟩

/-- A part with slot 1 VALID for entry 2. -/
def storedLock : State := fault (fun f => { f with slots := f.slots.set 1 (.valid header (some body)) }) ready

theorem witness_EntryLoadApplication :
    EntryConfig.default.enabled = 0 ∧ warn.enabled ≠ 0 ∧ warn.tier ≠ 2 ∧ lock.tier = 2 ∧
    (∃ k : Fin 4, storedLock.fault.slots[k].names = some 2) ∧ ¬∃ k : Fin 4, ready.fault.slots[k].names = some 2 := by
  decide +kernel

/-- Entry 2 in a state, with record 17 valid and a latest reading. -/
def measured (x : EntryState) (c : EntryConfig) (v : Reading) : State :=
  { entry2 x c ready with records := ready.records.set 17 { MeasRecord.default with valid := true, latest := v } }

theorem witness_EvaluationByState :
    ready.records[17].valid = false ∧ (measured .idle warn 100).records[17].valid = true ∧
    (measured .idle warn 100).entries[2].state = .idle ∧ (measured .pending warn 99).entries[2].state = .pending ∧
    (measured .asserted warn 89).entries[2].state = .asserted ∧
    tripCondition false (measured .idle warn 100).records[17].latest warn.trip = true ∧
    tripCondition false (measured .idle warn 99).records[17].latest warn.trip = false ∧
    recoveryCondition false (measured .idle warn 89).records[17].latest warn.recovery = true ∧
    recoveryCondition false (measured .idle warn 90).records[17].latest warn.recovery = false ∧
    warn.dwell = 0 ∧ { warn with dwell := 5 }.dwell ≠ 0 ∧ warn.transients = 0 ∧ { warn with transients := 1 }.transients ≠ 0 ∧
    { warn with recoveryMode := 1 }.recoveryMode = 1 ∧ warn.recoveryMode ≠ 1 ∧ warn.recoveryTime = 0 ∧
    { warn with recoveryTime := 3 }.recoveryTime ≠ 0 ∧ (measured .releasable warn 90).entries[2].state = .releasable ∧
    (measured .recovering warn 90).entries[2].state = .recovering ∧ (measured .locked lock 90).entries[2].state = .locked ∧
    (measured .off warn 90).entries[2].state = .off := by
  decide +kernel

/-- Entry 2 PENDING with its dwell counted, and RECOVERING with its recovery time counted. -/
def due (x : EntryState) : State :=
  { ready with
    entries := ready.entries.set 2
      { Entry.default with
        state := x, config := lock, dwellTimer := some 0, recoveryTimer := some 0
        dwellRecord := some { value := 120, threshold := 100, frame := 4 } } }

theorem witness_EntryTimerExpiries :
    (due .pending).inReset = false ∧ (due .pending).entries[2].state = .pending ∧
    (due .pending).entries[2].dwellTimer = some 0 ∧
    (due .pending).entries[2].dwellRecord = some { value := 120, threshold := 100, frame := 4 } ∧
    (due .recovering).entries[2].state = .recovering ∧ (due .recovering).entries[2].recoveryTimer = some 0 ∧
    ready.entries[2].recoveryTimer = none ∧ ready.entries[2].dwellTimer = none := by
  decide +kernel

theorem witness_ReleaseResults :
    (cmd 2 State.reset).commandTaken ∧ (cmd 2 State.reset).ready = false ∧ (cmd 32 ready).commandTaken ∧
    31 < (cmd 32 ready).port.arg0.toNat ∧ (cmd 2 ready).port.arg0.toNat = (2 : Fin 32).val ∧
    (cmd 2 (entry2 .pending warn ready)).entries[2].state = .pending ∧
    (cmd 2 (entry2 .recovering warn ready)).entries[2].state = .recovering ∧
    (cmd 2 (entry2 .locked lock ready)).entries[2].state = .locked ∧
    (cmd 2 (entry2 .releasable warn ready)).entries[2].state = .releasable :=
  ⟨cmd_taken _ rfl, rfl, cmd_taken _ rfl, by decide, rfl, rfl, rfl, rfl, rfl⟩

/-- A staged switch configuration. -/
def staged (c : SwitchConfig) : State := cmd 1 { ready with switchStaging := c }

/-- A switch configuration that passes. -/
def good : SwitchConfig := { SwitchConfig.default with enabled := 1, goodChannel := 17, rampTimeout := 1, dischargeTimeout := 1 }

theorem witness_SwitchLoad :
    (staged good).commandTaken ∧ (staged good).ready = true ∧ (staged good).port.arg0.toNat = (1 : Fin 8).val ∧
    7 < (cmd 8 ready).port.arg0.toNat ∧ (switch1 (fun w => { w with state := .failed }) ready).switches[1].state ≠ .off ∧
    (∃ st ∈ (poweringUp .waiting).seq.upList ++ (poweringUp .waiting).seq.downList, st.switch = 1) ∧
    (staged good).switches[1].state = .off ∧ good.enabled ≠ 0 ∧ 17 < ({ good with goodChannel := 18 }).goodChannel.toNat ∧
    good.goodChannel.toNat = (17 : Fin 18).val ∧ ({ good with enabled := 0, goodChannel := 18 }).enabled = 0 ∧
    ¬∃ st ∈ (staged good).seq.upList ++ (staged good).seq.downList, st.switch = 1 :=
  ⟨cmd_taken _ rfl, rfl, rfl, by decide, by decide +kernel, by decide +kernel, rfl, by decide, by decide, rfl, rfl,
    by decide +kernel⟩

theorem witness_RestartSwitchResults :
    (cmd 1 State.reset).commandTaken ∧ (cmd 1 State.reset).ready = false ∧ (cmd 8 ready).commandTaken ∧
    7 < (cmd 8 ready).port.arg0.toNat ∧ (cmd 1 ready).port.arg0.toNat = (1 : Fin 8).val ∧
    (cmd 1 ready).switches[1].state = .off ∧
    (switch1 (fun w => { w with state := .tripped }) ready).switches[1].state = .tripped ∧
    (switch1 (fun w => { w with state := .tripped }) ready).switches[1].holds = 0 ∧
    (switch1 (fun w => { w with state := .failed, holds := 1 }) ready).switches[1].holds ≠ 0 :=
  ⟨cmd_taken _ rfl, rfl, cmd_taken _ rfl, by decide, rfl, rfl, rfl, rfl, by decide +kernel⟩

theorem witness_SwitchMovesByTheTables :
    Switch.default.demand = false ∧ Switch.default.state = .off ∧ Switch.default.holds = 0 ∧
    { Switch.default with demand := true }.demand = true ∧ { Switch.default with holds := 4 }.holds ≠ 0 ∧
    { Switch.default with state := .on }.state = .on ∧ { Switch.default with state := .blocked }.state = .blocked ∧
    (4 : HoldSet) &&& ~~~(1#37 <<< (Holder.e 2).index) = 0 ∧ (6 : HoldSet) &&& ~~~(1#37 <<< (Holder.e 2).index) ≠ 0 := by
  decide +kernel

theorem witness_RampTimeout :
    ready.inReset = false ∧ ready.switches[1].rampTimer = none ∧
    (switch1 (fun w => { w with state := .ramping, rampTimer := some 0 }) ready).switches[1].rampTimer = some 0 ∧
    (switch1 (fun w => { w with state := .ramping, rampTimer := some 0 }) ready).switches[1].demand = false ∧
    (∃ j p, (poweringUp .waiting).seq.state = .poweringUp j p) ∧
    (switch1 (fun w => { w with state := .ramping, rampTimer := some 0, demand := true }) (poweringUp .waiting)).switches[1].demand =
      true ∧
    ready.seq.failed = [] ∧ failureSent.seq.failed = [1] ∧ (∀ j p, ready.seq.state ≠ .poweringUp j p) ∧
    (poweringUp .waiting).seq.upList[0]? = some (seqStep 5 100) ∧ (poweringUp .waiting).seq.stepLimit = some 0 :=
  ⟨rfl, rfl, rfl, rfl, ⟨0, .waiting, rfl⟩, rfl, rfl, rfl, (fun _ _ h => by cases h), rfl, rfl⟩

theorem witness_TripLineChanges :
    ready.inReset = false ∧ ready.trip.seen = false ∧ ready.trip.lowAtResetEnd = false ∧
    ({ seen := true, lowAtResetEnd := false } : TripFilter).seen = true ∧
    ({ seen := false, lowAtResetEnd := true } : TripFilter).lowAtResetEnd = true := by
  decide +kernel

theorem witness_SequenceLoad : (cmd 0 ready).commandTaken ∧ (cmd 0 ready).ready = true := ⟨cmd_taken 0 rfl, rfl⟩

theorem witness_PowerCommands :
    (cmd 0 State.reset).commandTaken ∧ (cmd 0 State.reset).ready = false ∧ (cmd 0 ready).ready = true ∧
    (cmd 0 (poweringUp .waiting)).seq.state = .poweringUp 0 .waiting ∧
    (cmd 0 (poweringDown .waiting 0)).seq.state = .poweringDown 0 .waiting .host ∧
    (cmd 0 (seq (fun q => { q with state := .running }) ready)).seq.state = .running ∧
    (cmd 0 (seq (fun q => { q with state := .notReady }) ready)).seq.state = .notReady ∧
    (cmd 0 ready).seq.state = .standby ∧ (cmd 0 ready).seq.upList = [] ∧
    (seq (fun q => { q with upList := [seqStep 0 0] }) ready).seq.upList ≠ [] :=
  ⟨cmd_taken 0 rfl, rfl, rfl, rfl, rfl, rfl, rfl, rfl, rfl, by decide +kernel⟩

theorem witness_SequenceSteps :
    (poweringUp .waiting).seq.upList[0]? = some (seqStep 5 100) ∧ (poweringUp .waiting).seq.upList.length ≤ 1 ∧
    (poweringDown .waiting 0).seq.downList[0]? = some (seqStep 0 0) ∧ (seqStep 0 0).settle = 0 ∧ (seqStep 5 0).settle ≠ 0 ∧
    (poweringDown .waiting 0).switches[1].discharged = false ∧ (poweringDown .waiting 0).seq.downList.length ≤ 1 ∧
    (switch1 (fun w => { w with discharged := true }) ready).switches[1].discharged = true := by
  decide +kernel

theorem witness_SequencerEvents :
    ready.inReset = false ∧ (poweringUp .waiting).seq.state = .poweringUp 0 .waiting ∧
    (poweringUp .settling).seq.state = .poweringUp 0 .settling ∧ (poweringUp .waiting).seq.stepLimit = some 0 ∧
    (poweringUp .waiting).seq.upList[0]? = some (seqStep 5 100) ∧ (seqStep 5 100).switch = 1 ∧ (seqStep 5 100).switch ≠ 0 ∧
    (poweringDown .waiting 5).seq.state = .poweringDown 0 .waiting .host ∧
    (poweringDown .waiting 5).seq.downList[0]? = some (seqStep 5 0) ∧ (poweringDown .waiting 5).seq.discharge = some 0 ∧
    (poweringDown .settling 0).seq.state = .poweringDown 0 .settling .host ∧
    (poweringDown .settling 0).seq.settle = some 0 ∧ ready.seq.settle = none ∧ ready.seq.stepLimit = none ∧
    ready.seq.discharge = none ∧ ready.seq.state = .standby := by
  decide +kernel

theorem witness_CaptureMade :
    CaptureStore.default.sound ∧ CaptureStore.default.records.length < 8 ∧
    ({ records := (List.range 8).map fun i => capture (BitVec.ofNat 8 i) (i % 2 == 0), nextId := 8 } : CaptureStore).sound ∧
    ((List.range 8).map fun i => capture (BitVec.ofNat 8 i) (i % 2 == 0)).length = 8 := by
  unfold CaptureStore.sound
  decide +kernel

theorem witness_DropCapturesResults :
    (cmd 0 State.reset).commandTaken ∧ (cmd 0 State.reset).ready = false ∧ (cmd 0 ready).commandTaken ∧
    (cmd 0 ready).ready = true := ⟨cmd_taken 0 rfl, rfl, cmd_taken 0 rfl, rfl⟩

theorem witness_LockRequestTaken :
    (fault (fun f => { f with copies := [{ entry := 2, body := body }] }) ready).fault.copies = [{ entry := 2, body := body }] ∧
    (∀ j : Fin 4, j < 0 → ready.fault.slots[j].nonEmpty = true) ∧ ready.fault.slots[0] = .empty false ∧
    ready.fault.work = [] ∧ (erasing .mark).fault.slots[0] = .empty false ∧ (erasing .mark).fault.work ≠ [] ∧
    (fault (fun f => { f with slots := f.slots.set 0 (.empty true) }) ready).fault.slots[0] = .empty true ∧
    ∀ k : Fin 4, (fault (fun f => { f with slots := Vector.replicate 4 (.valid header none) }) ready).fault.slots[k].nonEmpty =
      true := by
  decide +kernel

theorem witness_ProgramPhases :
    ready.fault.work = [] ∧ (erasing .mark).fault.work = [{ kind := .erase, slot := 1 }] ∧ WorkKind.erase ≠ .program ∧
    (programming .serial).fault.work = [{ kind := .program, slot := 1 }] ∧
    (programming .serial).fault.slots[1] = .writing 2 3 (some 8) body ∧
    (programming .serial).fault.serialWord = .value 0 ∧ (programming .serial).inReset = false ∧
    (programming .serial).fault.phase = some .serial ∧ (programming .header).fault.phase = some .header ∧
    (programming .body).fault.phase = some .body := by
  decide +kernel

theorem witness_ErasePhases :
    (erasing .mark).inReset = false ∧ (erasing .mark).fault.work = [{ kind := .erase, slot := 1 }] ∧
    (erasing .mark).fault.slots[1] = .erasing header (some body) ∧ (erasing .mark).fault.phase = some .mark ∧
    (erasing .clear).fault.phase = some .clear ∧ (erasing .unmark).fault.phase = some .unmark ∧
    (erasing .unmark).entries[header.entry].state ≠ .locked ∧
    (entry2 .locked lock (erasing .unmark)).entries[header.entry].state = .locked ∧
    (WorkKind.erase ≠ .program ∧ WorkKind.cleanup ≠ .program ∧ WorkKind.cleanupThenProgram ≠ .program) ∧
    (slot1 (.empty true) SlotMedium.blank .cleanup .mark ready).fault.phase = some .mark ∧
    (slot1 (.writing 2 3 none body) SlotMedium.blank .cleanupThenProgram .clear ready).fault.phase = some .clear ∧
    (slot1 (.empty true) SlotMedium.blank .cleanup .unmark ready).fault.slots[1] = .empty true ∧
    (slot1 (.empty true) SlotMedium.blank .cleanup .unmark ready).fault.work = [{ kind := .cleanup, slot := 1 }] ∧
    (slot1 (.writing 2 3 none body) SlotMedium.blank .cleanupThenProgram .unmark ready).fault.slots[1] =
      .writing 2 3 none body ∧
    (slot1 (.writing 2 3 none body) SlotMedium.blank .cleanupThenProgram .unmark ready).fault.serialWord = .value 0 := by
  decide +kernel

theorem witness_ClearLockResults :
    (cmd 2 State.reset).commandTaken ∧ (cmd 2 State.reset).ready = false ∧ (cmd 32 ready).commandTaken ∧
    31 < (cmd 32 ready).port.arg0.toNat ∧ (cmd 2 ready).port.arg0.toNat = (2 : Fin 32).val ∧
    storedLock.fault.slots[1].names = some 2 ∧
    (∀ j : Fin 4, storedLock.fault.slots[j].names = some 2 → j = 1) ∧
    storedLock.fault.slots[1] = .valid header (some body) ∧
    (programming .serial).fault.slots[1].code = 1 ∧ (programming .serial).fault.slots[1].names = some 2 ∧
    (∀ j : Fin 4, ready.fault.slots[j].names ≠ some 2) ∧ (entry2 .locked lock ready).entries[2].state = .locked ∧
    ready.entries[2].state ≠ .locked :=
  ⟨cmd_taken _ rfl, rfl, cmd_taken _ rfl, by decide, rfl, by decide +kernel, by decide +kernel, rfl, by decide +kernel,
    by decide +kernel, by decide +kernel, rfl, by decide +kernel⟩

/-- A full queue: a class 1 record, then thirty-one of class 2. -/
def full : EventQueue := { EventQueue.default with records := record 1 :: List.replicate 31 (record 2), lossCount := 255 }

theorem witness_ArrivalsTaken :
    EventQueue.default.records.length < 32 ∧ full.records.length = 32 ∧ (∀ x ∈ full.records, (record 1).cls ≤ x.cls) ∧
    full.records = [] ++ record 1 :: List.replicate 31 (record 2) ∧ (record 1).cls < (record 2).cls ∧
    (∀ y ∈ full.records, (record 1).cls ≤ y.cls) ∧ (∀ y ∈ List.replicate 31 (record 2), (record 1).cls < y.cls) := by
  decide +kernel

theorem witness_PopEventAndClearLoss :
    (cmd 0 State.reset).commandTaken ∧ (cmd 0 State.reset).queue.records = [] ∧
    (cmd 0 { ready with queue := full }).commandTaken ∧
    (cmd 0 { ready with queue := full }).queue.records = record 1 :: List.replicate 31 (record 2) :=
  ⟨cmd_taken 0 rfl, rfl, cmd_taken 0 rfl, rfl⟩

theorem witness_AlertLevelWrites :
    (at_ 0x0D State.reset).byteTakenAt 0x0D ∧ 4 < (5 : Byte).toNat ∧ (4 : Byte).toNat = (4 : Fin 5).val :=
  ⟨at_taken _ rfl, by decide, by decide⟩

theorem witness_SoftResetResults :
    (cmd 0 State.reset).commandTaken ∧ (cmd 0 State.reset).ready = false ∧ (cmd 0 ready).commandTaken ∧
    (cmd 0 ready).ready = true ∧ (poweringUp .waiting).seq.state.code = 2 ∧ (poweringDown .waiting 0).seq.state.code = 4 ∧
    (cmd 0 ready).seq.state = .standby ∧ (∀ i : Fin 8, (cmd 0 ready).switches[i].state = .off) ∧
    (cmd 0 ready).eHoldersExact :=
  ⟨cmd_taken 0 rfl, rfl, cmd_taken 0 rfl, rfl, rfl, rfl, rfl, by decide +kernel, by unfold State.eHoldersExact; decide +kernel⟩

theorem witness_TimeBaseTicks :
    ready.inReset = false ∧ (due .pending).entries[2].dwellTimer = some 0 ∧ ready.entries[2].dwellTimer = none ∧
    (poweringUp .waiting).seq.stepLimit = some 0 := by
  decide +kernel

theorem witness_MessagesBetweenBlocks :
    ({ records := [capture 2 false, capture 1 true], nextId := 3 } : CaptureStore).records =
      [capture 2 false] ++ capture 1 true :: [] ∧ (capture 1 true).pinned = true ∧
    (∀ r ∈ [capture 2 false], ¬(r.entry = (capture 1 true).entry ∧ r.pinned = true)) ∧
    (∀ x : Fin 18, decide (x = 3) = true ↔ x = 3) ∧
    (∀ x : Fin 18, decide (x ∉ listChannels []) = true ↔ x ∉ listChannels []) ∧
    ready.inReset = false ∧ (entry2 .idle warn ready).entries[2].state = .idle ∧
    (entry2 .idle warn ready).fault.sent = [] ∧ (sent [.engine 2, .store 2] ready).fault.sent = .engine 2 :: [.store 2] ∧
    (sent [.store 2] ready).fault.sent = .store 2 :: [] ∧ (entry2 .locked lock ready).entries[2].state = .locked := by
  decide +kernel

/-- A ready part meets every invariant, and a step from it answers a next state: a witness for all the statements on what
every step keeps. -/
theorem witness_invariants :
    ready.switchesLegal ∧ ready.entriesLegal ∧ ready.eHoldersExact ∧ ready.xHolderExact ∧ ready.startingClean ∧
    ready.queue.sound ∧ ready.captures.sound ∧ ready.listsSound ∧ ready.demandsFollow ∧ ready.scanSound ∧
    ready.recordsSound ∧ ∃ t, step { ready with pending := [.timeBaseTick] } = .next t := by
  refine ⟨?_, ?_, ?_, ?_, ?_, ?_, ?_, ?_, ?_, ?_, ?_, _, rfl⟩
  · unfold State.switchesLegal Switch.legal
    decide +kernel
  · unfold State.entriesLegal Entry.legal
    decide +kernel
  · unfold State.eHoldersExact
    decide +kernel
  · unfold State.xHolderExact
    decide +kernel
  · unfold State.startingClean
    decide +kernel
  · unfold EventQueue.sound
    decide +kernel
  · unfold CaptureStore.sound
    decide +kernel
  · unfold State.listsSound
    decide +kernel
  · unfold State.demandsFollow
    decide +kernel
  · unfold State.scanSound
    decide +kernel
  · unfold State.recordsSound
    decide +kernel

/-- A stored lock on the medium of slot 1, in the view of a ready part. -/
def lockedPart : State :=
  { storedLock with
    fault :=
      { storedLock.fault with
        medium := storedLock.fault.medium.set 1 { header := .whole header, body := .whole body, mark := .blank } }
    switches := Vector.ofFn fun i => if header.mask.getLsbD i.val then ready.switches[i].join (.k 1) else ready.switches[i] }

theorem witness_StoredLocksSurvive :
    lockedPart.startingClean ∧ lockedPart.locksAgree ∧ lockedPart.kHoldersExact ∧
    lockedPart.fault.slots[1] = .valid header (some body) ∧ ∃ t, exec .pinReset lockedPart = .next t := by
  refine ⟨?_, ?_, ?_, rfl, _, rfl⟩
  · unfold State.startingClean
    decide +kernel
  · refine ⟨by decide +kernel, by decide +kernel, by decide +kernel, fun k _ => ?_⟩
    match k with
    | 0 => exact ⟨rfl, rfl⟩
    | 1 => exact ⟨rfl, rfl⟩
    | 2 => exact ⟨rfl, rfl⟩
    | 3 => exact ⟨rfl, rfl⟩
  · intro i k
    match k with
    | 0 => revert i; decide +kernel
    | 1 => revert i; decide +kernel
    | 2 => revert i; decide +kernel
    | 3 => revert i; decide +kernel

theorem witness_StoredLocksSurvive_apart :
    (let u : State := { lockedPart with pending := [.pinReset] }
     u.startingClean ∧ u.slotsNameApart ∧ u.fault.slots[1].names = some 2 ∧ ∃ t, step u = .next t) := by
  refine ⟨?_, ?_, rfl, _, rfl⟩
  · unfold State.startingClean
    decide +kernel
  · have rests : ∀ n : Fin 32, lockedPart.entries[n].state = .off ∧ lockedPart.entries[n].pendingLoad = none := by
      decide +kernel
    refine ⟨by decide +kernel, by decide +kernel, by decide +kernel, fun k n _ => ⟨.inr ⟨(rests n).1, fun c hc => ?_⟩, ?_⟩,
      by decide +kernel⟩
    · exact absurd ((rests n).2.symm.trans hc) (by simp)
    · exact List.not_mem_nil

/-- Slots 0 and 1 ERASING: slot 0 in its mark phase, and slot 1 not started. -/
def twoErases : State :=
  fault (fun f => { f with
    slots := (f.slots.set 0 (.erasing { header with entry := 3 } none)).set 1 (.erasing header (some body))
    medium := (f.medium.set 0 { SlotMedium.blank with header := .whole { header with entry := 3 } }).set 1
      { header := .whole header, body := .whole body, mark := .blank }
    work := [{ kind := .erase, slot := 0 }, { kind := .erase, slot := 1 }]
    phase := some .mark }) ready

/-- Slot 1 WRITING in its body phase. -/
def halfWritten : State :=
  slot1 (.writing 2 3 (some 7) body) { SlotMedium.blank with header := .whole header } .program .body ready

theorem witness_StoredLocksSurvive_in_flight :
    (twoErases.startingClean ∧ twoErases.locksAgree ∧ twoErases.fault.slots[1] = .erasing header (some body) ∧
      twoErases.fault.phaseOf 1 = none ∧ twoErases.fault.slots[0] = .erasing { header with entry := 3 } none ∧
      twoErases.fault.phaseOf 0 = some .mark) ∧
    halfWritten.startingClean ∧ halfWritten.locksAgree ∧ halfWritten.fault.slots[1] = .writing 2 3 (some 7) body ∧
    halfWritten.fault.phaseOf 1 = some .body := by
  refine ⟨⟨?_, ?_, rfl, by decide +kernel, rfl, by decide +kernel⟩, ?_, ?_, rfl, by decide +kernel⟩
  · unfold State.startingClean
    decide +kernel
  · refine ⟨by decide +kernel, by decide +kernel, by decide +kernel, fun k _ => ?_⟩
    match k with
    | 0 => exact ⟨rfl, trivial, fun _ => rfl⟩
    | 1 => exact ⟨rfl, trivial, fun _ => rfl⟩
    | 2 => exact ⟨rfl, rfl⟩
    | 3 => exact ⟨rfl, rfl⟩
  · unfold State.startingClean
    decide +kernel
  · refine ⟨by decide +kernel, by decide +kernel, by decide +kernel, fun k _ => ?_⟩
    match k with
    | 0 => exact ⟨rfl, rfl⟩
    | 1 => exact .inl ⟨rfl, rfl⟩
    | 2 => exact ⟨rfl, rfl⟩
    | 3 => exact ⟨rfl, rfl⟩

end Sys2Proof.Tests
end

section
/-! SUPPORT. Stored locks (R139 to R149): each operation of Fault Memory keeps the views in agreement with the medium,
and every step of the table keeps the names of the slots apart; the proof of StoredLocksSurvive. -/

namespace Sys2Proof.Machine

/-! ### Fault Memory: one slot at a time -/

/-- One place of a vector after another is set. -/
theorem getElem_set_fin {α : Type} {n : Nat} (v : Vector α n) (k j : Fin n) (x : α) :
    (v.set k x)[j] = if k = j then x else v[j] := by
  simp [Vector.getElem_set, Fin.ext_iff]

/-- What the head of the work list is to its slot (R140). -/
theorem itemKind_head {f : FaultMemory} {i : WorkItem} {rest : List WorkItem} (h : f.work = i :: rest) :
    f.itemKind i.slot = some i.kind := by
  simp [FaultMemory.itemKind, h]

/-- The slot of the head has reached the phase of the item in flight (R140). -/
theorem phaseOf_head {f : FaultMemory} {i : WorkItem} {rest : List WorkItem} (h : f.work = i :: rest) :
    f.phaseOf i.slot = f.phase := by
  simp [FaultMemory.phaseOf, h]

/-- No other slot's item is in flight (R140). -/
theorem phaseOf_other {f : FaultMemory} {i : WorkItem} {rest : List WorkItem} {k : Fin 4} (h : f.work = i :: rest)
    (hk : k ≠ i.slot) : f.phaseOf k = none := by
  simp [FaultMemory.phaseOf, h, hk.symm]

/-- With nothing in flight no slot has reached a phase. -/
theorem phaseOf_idle {f : FaultMemory} (h : f.phase = none) (k : Fin 4) : f.phaseOf k = none := by
  simp [FaultMemory.phaseOf, h]

section slotAgrees
variable {f : FaultMemory} {k : Fin 4}

theorem slotAgrees_blank (hs : f.slots[k] = .empty false) :
    f.slotAgrees k ↔ f.itemKind k = none ∧ f.medium[k] = SlotMedium.blank := by
  unfold FaultMemory.slotAgrees
  rw [hs]

theorem slotAgrees_cleanup (hs : f.slots[k] = .empty true) :
    f.slotAgrees k ↔ f.itemKind k = some .cleanup ∧ erasedSoFar f.medium[k] (f.phaseOf k) := by
  unfold FaultMemory.slotAgrees
  rw [hs]

theorem slotAgrees_valid {h : LockHeader} {b : Option LockBody} (hs : f.slots[k] = .valid h b) :
    f.slotAgrees k ↔ f.itemKind k = none ∧ f.medium[k].restored = .valid h b := by
  unfold FaultMemory.slotAgrees
  rw [hs]

theorem slotAgrees_erasing {h : LockHeader} {b : Option LockBody} (hs : f.slots[k] = .erasing h b) :
    f.slotAgrees k ↔ f.itemKind k = some .erase ∧ erasedSoFar f.medium[k] (f.phaseOf k) ∧
      (f.phaseOf k = none ∨ f.phaseOf k = some .mark → f.medium[k].restored = .valid h b) := by
  unfold FaultMemory.slotAgrees
  rw [hs]

/-- A WRITING slot is either a program, so far, or still the cleanup erase before it (R141, R149). -/
theorem slotAgrees_writing {e : Fin 32} {m : Byte} {x : Option Half} {b : LockBody}
    (hs : f.slots[k] = .writing e m x b) :
    f.slotAgrees k ↔
      ((f.itemKind k = some .program ∨ f.itemKind k = some .cleanupThenProgram ∧ x.isSome = true) ∧
        programmedSoFar f.medium[k] (x.map fun y => { entry := e, mask := m, serial := y }) (f.phaseOf k)) ∨
      (f.itemKind k = some .cleanupThenProgram ∧ x = none ∧ erasedSoFar f.medium[k] (f.phaseOf k)) := by
  unfold FaultMemory.slotAgrees
  rw [hs]
  grind

end slotAgrees

/-! ### The phases of a program on the medium (R141) -/

@[simp] theorem programmedSoFar_none {d : SlotMedium} {h : Option LockHeader} :
    programmedSoFar d h none ↔ h = none ∧ d = SlotMedium.blank := by
  cases h <;> simp [programmedSoFar]

@[simp] theorem programmedSoFar_serial {d : SlotMedium} {h : Option LockHeader} :
    programmedSoFar d h (some .serial) ↔ h.isSome = true ∧ d = SlotMedium.blank := by
  cases h <;> simp [programmedSoFar]

@[simp] theorem programmedSoFar_header {d : SlotMedium} {h : Option LockHeader} :
    programmedSoFar d h (some .header) ↔ h.isSome = true ∧ d = SlotMedium.blank := by
  cases h <;> simp [programmedSoFar]

@[simp] theorem programmedSoFar_body {d : SlotMedium} {h : Option LockHeader} :
    programmedSoFar d h (some .body) ↔ ∃ x, h = some x ∧ d = { SlotMedium.blank with header := .whole x } := by
  cases h <;> simp [programmedSoFar]

theorem not_programmedSoFar_erase {d : SlotMedium} {h : Option LockHeader} {p : OpPhase}
    (hp : p = .mark ∨ p = .clear ∨ p = .unmark) : ¬programmedSoFar d h (some p) := by
  rcases hp with rfl | rfl | rfl <;> simp [programmedSoFar]

/-! ### Fault Memory in a ready part -/

/-- Every slot agrees with its medium, no slot has two items, and an item is in flight while there is one: what
`State.locksAgree` says of a ready part (R138 to R143). -/
structure FaultMemory.Agreeing (f : FaultMemory) : Prop where
  nodup : (f.work.map WorkItem.slot).Nodup
  busy : f.phase.isSome = true ↔ f.work ≠ []
  slot : ∀ k : Fin 4, f.slotAgrees k

theorem State.locksAgree_ready {s : State} (h : s.ready = true) : s.locksAgree ↔ s.fault.Agreeing := by
  constructor
  · rintro ⟨h1, h2, _, h4⟩
    exact ⟨h1, h2 h, fun k => h4 k (.inl h)⟩
  · rintro ⟨h1, h2, h4⟩
    exact ⟨h1, fun _ => h2, fun e => absurd (h.symm.trans e) (by simp), fun k _ => h4 k⟩

/-- The item in flight moves on: its own slot agrees after the phase, and the other slots are as they were. -/
theorem FaultMemory.Agreeing.move {f g : FaultMemory} {i : WorkItem} {rest : List WorkItem}
    (ha : (∀ k : Fin 4, f.slotAgrees k) ∧ (f.work.map WorkItem.slot).Nodup) (hw : f.work = i :: rest)
    (hg : g.work = f.work) (hp : g.phase.isSome = true)
    (ho : ∀ k : Fin 4, k ≠ i.slot → g.slots[k] = f.slots[k] ∧ g.medium[k] = f.medium[k])
    (hi : g.slotAgrees i.slot) : g.Agreeing := by
  refine ⟨by rw [hg]; exact ha.2, by simp [hp, hg, hw], fun k => ?_⟩
  by_cases hk : k = i.slot
  · rw [hk]
    exact hi
  · refine FaultMemory.slotAgrees_congr (ho k hk).1 ?_ (ho k hk).2 ?_ (ha.1 k)
    · simp [FaultMemory.itemKind, hg]
    · rw [phaseOf_other hw hk, phaseOf_other (hg.trans hw) hk]

/-- A program starts only from a blank medium, in a slot whose serial is not drawn yet (R141). -/
theorem FaultMemory.startProgram_of_writing {f : FaultMemory} {k : Fin 4} {e : Fin 32} {m : Byte} {x : Option Half}
    {b : LockBody} (h : f.slots[k] = .writing e m x b) : f.startProgram k =
      { f with slots := f.slots.set k (.writing e m (some f.serialWord.next) b), phase := some .serial } := by
  unfold FaultMemory.startProgram
  rw [h]

theorem FaultMemory.startHead_nil {f : FaultMemory} (h : f.work = []) : f.startHead = { f with phase := none } := by
  unfold FaultMemory.startHead
  rw [h]

theorem FaultMemory.startHead_program {f : FaultMemory} {i : WorkItem} {rest : List WorkItem}
    (h : f.work = i :: rest) (hk : i.kind = .program) : f.startHead = f.startProgram i.slot := by
  unfold FaultMemory.startHead
  rw [h]
  simp only [hk]

theorem FaultMemory.startHead_mark {f : FaultMemory} {i : WorkItem} {rest : List WorkItem}
    (h : f.work = i :: rest) (hk : i.kind ≠ .program) : f.startHead = { f with phase := some .mark } := by
  unfold FaultMemory.startHead
  rw [h]
  cases hi : i.kind <;> simp_all

/-- The start of the next item does not read the phase before it (R140). -/
theorem FaultMemory.startHead_phase (f : FaultMemory) (p : Option OpPhase) :
    ({ f with phase := p } : FaultMemory).startHead = f.startHead := by
  unfold FaultMemory.startHead FaultMemory.startProgram
  rfl

/-- An erase begins with its mark phase, whatever the slot's view (R142, R149). -/
theorem FaultMemory.slotAgrees_mark {f : FaultMemory} {i : WorkItem} {rest : List WorkItem} (hw : f.work = i :: rest)
    (hp : f.phase = none) (hk : i.kind ≠ .program) (ha : f.slotAgrees i.slot) :
    ({ f with phase := some .mark } : FaultMemory).slotAgrees i.slot := by
  have hi := itemKind_head hw
  have hi' : ({ f with phase := some .mark } : FaultMemory).itemKind i.slot = some i.kind := hi
  have hp' : ({ f with phase := some .mark } : FaultMemory).phaseOf i.slot = some .mark := phaseOf_head hw
  unfold FaultMemory.slotAgrees at *
  rw [hi, phaseOf_idle hp] at ha
  rw [hi', hp']
  dsimp only
  split <;> simp_all [erasedSoFar]
  rcases ha.2 with hx | ⟨hx, hx', _⟩
  · exact .inl hx
  · simp [hx'] at hx

/-- A program that is due finds its slot WRITING, its serial still to come and its medium blank (R141). -/
theorem FaultMemory.slotAgrees_due {f : FaultMemory} {k : Fin 4} (hi : f.itemKind k = some .program)
    (hp : f.phaseOf k = none) (ha : f.slotAgrees k) :
    ∃ e m b, f.slots[k] = .writing e m none b ∧ f.medium[k] = SlotMedium.blank := by
  unfold FaultMemory.slotAgrees at ha
  rw [hi, hp] at ha
  split at ha <;> simp_all

/-- With nothing in flight the head of the work list starts, and every slot agrees as before (R140). -/
theorem FaultMemory.startHead_agreeing {f : FaultMemory} (hn : (f.work.map WorkItem.slot).Nodup) (hp : f.phase = none)
    (ha : ∀ k : Fin 4, f.slotAgrees k) : f.startHead.Agreeing := by
  by_cases hw : f.work = []
  · rw [FaultMemory.startHead_nil hw, ← hp]
    exact ⟨hn, by simp [hw, hp], ha⟩
  · obtain ⟨i, rest, hw⟩ := List.exists_cons_of_ne_nil hw
    by_cases hk : i.kind = .program
    · have hi : f.itemKind i.slot = some .program := (itemKind_head hw).trans (congrArg some hk)
      obtain ⟨e, m, b, hs, hd⟩ := FaultMemory.slotAgrees_due hi (phaseOf_idle hp _) (ha _)
      rw [FaultMemory.startHead_program hw hk, FaultMemory.startProgram_of_writing hs]
      refine .move ⟨ha, hn⟩ hw rfl rfl (fun k hne => ⟨?_, rfl⟩) ?_
      · simp only [getElem_set_fin, hne.symm, if_false]
      · refine (slotAgrees_writing (by rw [getElem_set_fin, if_pos rfl])).2 (.inl ⟨.inl hi, ?_⟩)
        rw [phaseOf_head (by exact hw)]
        exact hd
    · rw [FaultMemory.startHead_mark hw hk]
      exact .move ⟨ha, hn⟩ hw rfl rfl (fun _ _ => ⟨rfl, rfl⟩) (FaultMemory.slotAgrees_mark hw hp hk (ha _))

/-- The item in flight is done: its slot is settled without it, and the next item starts (R140). -/
theorem FaultMemory.Agreeing.finish {f g : FaultMemory} {i : WorkItem} {rest : List WorkItem} (ha : f.Agreeing)
    (hw : f.work = i :: rest) (hg : g.work = f.work)
    (ho : ∀ k : Fin 4, k ≠ i.slot → g.slots[k] = f.slots[k] ∧ g.medium[k] = f.medium[k])
    (hi : (∃ h b, g.slots[i.slot] = .valid h b ∧ g.medium[i.slot].restored = .valid h b) ∨
      (g.slots[i.slot] = .empty false ∧ g.medium[i.slot] = SlotMedium.blank)) : g.finishHead.Agreeing := by
  have hgw : g.work.tail = rest := by rw [hg, hw]; rfl
  have hn := ha.nodup
  rw [hw, List.map_cons, List.nodup_cons] at hn
  unfold FaultMemory.finishHead
  rw [hgw, ← FaultMemory.startHead_phase _ none]
  refine FaultMemory.startHead_agreeing hn.2 rfl fun k => ?_
  by_cases hk : k = i.slot
  · subst hk
    have free : ({ g with work := rest, phase := none } : FaultMemory).itemKind i.slot = none := itemKind_eq_none.2 hn.1
    rcases hi with ⟨h, b, hs, hd⟩ | ⟨hs, hd⟩
    · exact (slotAgrees_valid (f := { g with work := rest, phase := none }) hs).2 ⟨free, hd⟩
    · exact (slotAgrees_blank (f := { g with work := rest, phase := none }) hs).2 ⟨free, hd⟩
  · refine FaultMemory.slotAgrees_congr (ho k hk).1 ?_ (ho k hk).2 ?_ (ha.slot k)
    · simp [FaultMemory.itemKind, hw, Ne.symm hk]
    · rw [phaseOf_other hw hk, phaseOf_idle rfl]

/-! ### Programs (R141) -/

/-- What the program in flight in a phase is: the head of the work list. -/
theorem FaultMemory.programming_some {f : FaultMemory} {p : OpPhase} {k : Fin 4} (h : f.programming p = some k) :
    ∃ i rest, f.work = i :: rest ∧ i.slot = k ∧ f.phase = some p ∧
      (i.kind = .program ∨ i.kind = .cleanupThenProgram) := by
  unfold FaultMemory.programming at h
  split at h
  · cases h
  · rename_i i rest hw
    split at h
    · rename_i hc
      exact ⟨i, rest, hw, by simpa using h, hc⟩
    · cases h

/-- What the end of a program's serial or header phase does, once (R141). -/
theorem FaultMemory.programPhaseEnd_cases (f : FaultMemory) : f.programPhaseEnd = f ∨
    ∃ k e m x b, f.slots[k] = .writing e m (some x) b ∧
      ((f.programming .serial = some k ∧ f.programPhaseEnd = { f with serialWord := .value x, phase := some .header }) ∨
       (f.programming .header = some k ∧ f.programPhaseEnd = { f with
          medium := f.medium.set k { f.medium[k] with header := .whole { entry := e, mask := m, serial := x } }
          phase := some .body })) := by
  unfold FaultMemory.programPhaseEnd
  split
  · rename_i k hk
    split
    · rename_i e m x b hs
      exact .inr ⟨k, e, m, x, b, hs, .inl ⟨hk, rfl⟩⟩
    all_goals exact .inl rfl
  · split
    · rename_i k hk
      split
      · rename_i e m x b hs
        exact .inr ⟨k, e, m, x, b, hs, .inr ⟨hk, rfl⟩⟩
      all_goals exact .inl rfl
    · exact .inl rfl

/-- A program in flight has written what its phase says (R141). -/
theorem FaultMemory.programmed_of_agrees {f : FaultMemory} {k : Fin 4} {p : OpPhase} {e : Fin 32} {m : Byte} {y : Half}
    {b : LockBody} (hs : f.slots[k] = .writing e m (some y) b) (hp : f.phaseOf k = some p) (ha : f.slotAgrees k) :
    programmedSoFar f.medium[k] (some { entry := e, mask := m, serial := y }) (some p) := by
  rcases (slotAgrees_writing hs).1 ha with ⟨_, h⟩ | ⟨_, h, _⟩
  · rw [hp] at h
    exact h
  · cases h

/-- A program in flight goes on agreeing in its next phase, with what that phase asks of the medium (R141). -/
theorem FaultMemory.slotAgrees_programming {f : FaultMemory} {i : WorkItem} {rest : List WorkItem} {e : Fin 32}
    {m : Byte} {y : Half} {b : LockBody} {p : OpPhase} (hw : f.work = i :: rest)
    (hk : i.kind = .program ∨ i.kind = .cleanupThenProgram) (hs : f.slots[i.slot] = .writing e m (some y) b)
    (hp : f.phase = some p)
    (hd : programmedSoFar f.medium[i.slot] (some { entry := e, mask := m, serial := y }) (some p)) :
    f.slotAgrees i.slot := by
  refine (slotAgrees_writing hs).2 (.inl ⟨?_, ?_⟩)
  · rw [itemKind_head hw]
    simpa using hk
  · rw [phaseOf_head hw, hp]
    exact hd

theorem FaultMemory.Agreeing.programPhaseEnd {f : FaultMemory} (ha : f.Agreeing) : f.programPhaseEnd.Agreeing := by
  rcases f.programPhaseEnd_cases with h | ⟨k, e, m, x, b, hs, ⟨hk, h⟩ | ⟨hk, h⟩⟩
  · rw [h]
    exact ha
  all_goals
    rw [h]
    obtain ⟨i, rest, hw, rfl, hp, hkind⟩ := FaultMemory.programming_some hk
    have hd := FaultMemory.programmed_of_agrees hs ((phaseOf_head hw).trans hp) (ha.slot _)
  · refine .move ⟨ha.slot, ha.nodup⟩ hw rfl rfl (fun _ _ => ⟨rfl, rfl⟩) ?_
    exact FaultMemory.slotAgrees_programming (by exact hw) hkind hs rfl (by simpa using hd)
  · refine .move ⟨ha.slot, ha.nodup⟩ hw rfl rfl (fun j hj => ⟨rfl, ?_⟩) ?_
    · simp only [getElem_set_fin, hj.symm, if_false]
    · refine FaultMemory.slotAgrees_programming (by exact hw) hkind hs rfl ?_
      have hd : f.medium[i.slot] = SlotMedium.blank := by simpa using hd
      simp [hd]

/-! ### Erases (R142, R149) -/

/-- The view of a slot that an erase of a kind clears (R142, R149). -/
def WorkKind.clears (w : WorkKind) (v : SlotView) : Prop :=
  match w with
  | .program => False
  | .erase => ∃ h b, v = .erasing h b
  | .cleanup => v = .empty true
  | .cleanupThenProgram => ∃ e m b, v = .writing e m none b

/-- What agreement says of a slot whose erase is in flight (R142, R149). -/
theorem FaultMemory.slotAgrees_erase {f : FaultMemory} {i : WorkItem} {rest : List WorkItem} {p : OpPhase}
    (hw : f.work = i :: rest) (hp : f.phase = some p) (he : p = .mark ∨ p = .clear ∨ p = .unmark)
    (hk : i.kind ≠ .program) :
    f.slotAgrees i.slot ↔ i.kind.clears f.slots[i.slot] ∧ erasedSoFar f.medium[i.slot] (some p) ∧
      (p = .mark → ∀ h b, f.slots[i.slot] = .erasing h b → f.medium[i.slot].restored = .valid h b) := by
  have hnot (d : SlotMedium) (h : Option LockHeader) : ¬programmedSoFar d h (some p) := not_programmedSoFar_erase he
  have hi := itemKind_head hw
  have hp' := (phaseOf_head hw).trans hp
  generalize hv : f.slots[i.slot] = v
  generalize i.kind = w at hk hi
  cases v with
  | empty c =>
    cases c
    · rw [slotAgrees_blank hv, hi]
      cases w <;> simp [WorkKind.clears]
    · rw [slotAgrees_cleanup hv, hi, hp']
      cases w <;> simp [WorkKind.clears]
  | writing e m x b =>
    rw [slotAgrees_writing hv, hi, hp']
    cases w <;> simp_all [WorkKind.clears]
  | valid h b =>
    rw [slotAgrees_valid hv, hi]
    cases w <;> simp [WorkKind.clears]
  | erasing h b =>
    rw [slotAgrees_erasing hv, hi, hp']
    cases w <;> simp [WorkKind.clears]

/-- What the erase in flight in a phase is: the head of the work list. -/
theorem FaultMemory.erasingNow_some {f : FaultMemory} {p : OpPhase} {k : Fin 4} {w : WorkKind}
    (h : f.erasingNow p = some (k, w)) :
    ∃ i rest, f.work = i :: rest ∧ i.slot = k ∧ i.kind = w ∧ f.phase = some p ∧ i.kind ≠ .program := by
  unfold FaultMemory.erasingNow at h
  split at h
  · cases h
  · rename_i i rest hw
    split at h
    · rename_i hc
      simp only [Option.some.injEq, Prod.mk.injEq] at h
      exact ⟨i, rest, hw, h.1, h.2, hc⟩
    · cases h

/-- What the end of an erase's mark or clear phase does, once (R142). -/
theorem FaultMemory.erasePhaseEnd_cases (f : FaultMemory) : f.erasePhaseEnd = f ∨
    ∃ k w, (f.erasingNow .mark = some (k, w) ∧ f.erasePhaseEnd = { f with
        medium := f.medium.set k { f.medium[k] with mark := .whole () }, phase := some .clear }) ∨
      (f.erasingNow .clear = some (k, w) ∧ f.erasePhaseEnd = { f with
        medium := f.medium.set k { f.medium[k] with header := .blank, body := .blank }, phase := some .unmark }) := by
  unfold FaultMemory.erasePhaseEnd
  split
  · rename_i k w h
    exact .inr ⟨k, w, .inl ⟨h, rfl⟩⟩
  · split
    · rename_i k w h
      exact .inr ⟨k, w, .inr ⟨h, rfl⟩⟩
    · exact .inl rfl

theorem FaultMemory.Agreeing.erasePhaseEnd {f : FaultMemory} (ha : f.Agreeing) : f.erasePhaseEnd.Agreeing := by
  rcases f.erasePhaseEnd_cases with h | ⟨k, w, ⟨hk, h⟩ | ⟨hk, h⟩⟩
  · rw [h]
    exact ha
  all_goals
    rw [h]
    obtain ⟨i, rest, hw, rfl, rfl, hp, hkind⟩ := FaultMemory.erasingNow_some hk
    have hv := ((FaultMemory.slotAgrees_erase hw hp (by simp) hkind).1 (ha.slot _)).1
    refine .move ⟨ha.slot, ha.nodup⟩ hw rfl rfl (fun j hj => ⟨rfl, ?_⟩) ?_
    · simp only [getElem_set_fin, hj.symm, if_false]
    · refine (FaultMemory.slotAgrees_erase (by exact hw) rfl (by simp) hkind).2 ⟨hv, ?_, by simp⟩
      simp [erasedSoFar]

/-- What the end of a cleanup erase does, once (R142, R149). -/
theorem FaultMemory.cleanupComplete_cases (f : FaultMemory) : f.cleanupComplete = f ∨
    ∃ k, (f.erasingNow .unmark = some (k, .cleanup) ∧ f.cleanupComplete = ({ f with
        medium := f.medium.set k { f.medium[k] with mark := .blank }
        slots := f.slots.set k (.empty false) } : FaultMemory).finishHead) ∨
      (f.erasingNow .unmark = some (k, .cleanupThenProgram) ∧ f.cleanupComplete = ({ f with
        medium := f.medium.set k { f.medium[k] with mark := .blank } } : FaultMemory).startProgram k) := by
  unfold FaultMemory.cleanupComplete
  split
  · exact .inl rfl
  · rename_i k w h
    dsimp only
    split
    · split
      · exact .inr ⟨k, .inl ⟨h, rfl⟩⟩
      all_goals exact .inl rfl
    · exact .inr ⟨k, .inr ⟨h, rfl⟩⟩
    all_goals exact .inl rfl

/-- At the end of an unmark phase the slot's medium is blank but for its mark (R142). -/
theorem FaultMemory.Agreeing.unmarked {f : FaultMemory} {k : Fin 4} {w : WorkKind} (ha : f.Agreeing)
    (h : f.erasingNow .unmark = some (k, w)) :
    w.clears f.slots[k] ∧ ({ f.medium[k] with mark := .blank } : SlotMedium) = SlotMedium.blank := by
  obtain ⟨i, rest, hw, rfl, rfl, hp, hkind⟩ := FaultMemory.erasingNow_some h
  obtain ⟨hv, ⟨hh, hb⟩, _⟩ := (FaultMemory.slotAgrees_erase hw hp (by simp) hkind).1 (ha.slot _)
  refine ⟨hv, ?_⟩
  dsimp only
  rw [hh, hb]
  rfl

theorem FaultMemory.Agreeing.cleanupComplete {f : FaultMemory} (ha : f.Agreeing) : f.cleanupComplete.Agreeing := by
  rcases f.cleanupComplete_cases with h | ⟨k, ⟨hk, h⟩ | ⟨hk, h⟩⟩
  · rw [h]
    exact ha
  · rw [h, (ha.unmarked hk).2]
    obtain ⟨i, rest, hw, rfl, _⟩ := FaultMemory.erasingNow_some hk
    refine ha.finish hw rfl (fun j hj => ?_) (.inr ?_)
    · simp only [getElem_set_fin, hj.symm, if_false, true_and]
    · simp only [getElem_set_fin, if_true, true_and]
  · obtain ⟨⟨e, m, b, hs⟩, hd⟩ := ha.unmarked hk
    obtain ⟨i, rest, hw, rfl, hkind, _⟩ := FaultMemory.erasingNow_some hk
    rw [h, hd, FaultMemory.startProgram_of_writing (by exact hs)]
    refine .move ⟨ha.slot, ha.nodup⟩ hw rfl rfl (fun j hj => ?_) ?_
    · simp only [getElem_set_fin, hj.symm, if_false, true_and]
    · refine FaultMemory.slotAgrees_programming (by exact hw) (.inr hkind) (by rw [getElem_set_fin, if_pos rfl]) rfl ?_
      rw [getElem_set_fin, if_pos rfl]
      simp

/-- An item for a slot without one joins the work list, and starts at once where it is the only one (R140). -/
theorem FaultMemory.enqueue_agreeing {f : FaultMemory} {i : WorkItem} (hn : (f.work.map WorkItem.slot).Nodup)
    (hb : f.phase.isSome = true ↔ f.work ≠ []) (hi : i.slot ∉ f.work.map WorkItem.slot)
    (ho : ∀ k : Fin 4, k ≠ i.slot → f.slotAgrees k)
    (ha : ({ f with work := f.work ++ [i] } : FaultMemory).phaseOf i.slot = none →
      ({ f with work := f.work ++ [i] } : FaultMemory).slotAgrees i.slot) : (f.enqueue i).Agreeing := by
  have phases (k : Fin 4) : ({ f with work := f.work ++ [i] } : FaultMemory).phaseOf k = f.phaseOf k := by
    by_cases hw : f.work = []
    · have hp : f.phase = none := by simpa [hw] using hb
      rw [phaseOf_idle hp, phaseOf_idle (by exact hp)]
    · exact phaseOf_append hw
  have nodup : ((f.work ++ [i]).map WorkItem.slot).Nodup := by
    rw [List.map_append, List.nodup_append]
    refine ⟨hn, by simp, fun x hx y hy e => hi ?_⟩
    simp only [List.map_cons, List.map_nil, List.mem_singleton] at hy
    rwa [← hy, ← e]
  have slots (k : Fin 4) : ({ f with work := f.work ++ [i] } : FaultMemory).slotAgrees k := by
    by_cases hk : k = i.slot
    · rw [hk]
      exact ha ((phases _).trans (phaseOf_eq_none hi))
    · exact FaultMemory.slotAgrees_congr (f := f) rfl (itemKind_append (Ne.symm hk)) rfl (phases k) (ho k hk)
  unfold FaultMemory.enqueue
  dsimp only
  split
  · rename_i hw
    have hp : f.phase = none := by simpa [List.isEmpty_iff.1 hw] using hb
    exact FaultMemory.startHead_agreeing nodup hp slots
  · rename_i hw
    have hw : f.work ≠ [] := by simpa using hw
    exact ⟨nodup, by simpa [hw] using hb, slots⟩

/-- A CLEAR LOCK's erase joins the work list (R145). -/
theorem FaultMemory.Agreeing.queueErase {f : FaultMemory} (ha : f.Agreeing) (k : Fin 4) : (f.queueErase k).Agreeing := by
  unfold FaultMemory.queueErase
  split
  · rename_i h b hs
    obtain ⟨hi, hd⟩ := (slotAgrees_valid hs).1 (ha.slot k)
    have hnot := itemKind_eq_none.1 hi
    refine FaultMemory.enqueue_agreeing ha.nodup ha.busy hnot (fun j hj => ?_) ?_
    · refine FaultMemory.slotAgrees_congr (f := f) ?_ rfl rfl rfl (ha.slot j)
      simp only [FaultMemory.setSlot, getElem_set_fin, Ne.symm hj, if_false]
    · intro hp
      refine (slotAgrees_erasing (by simp only [FaultMemory.setSlot, getElem_set_fin, if_true])).2 ⟨?_, ?_, fun _ => hd⟩
      · exact itemKind_append_self (f := f) (i := { kind := .erase, slot := k }) hi
      · rw [show FaultMemory.phaseOf _ k = none from hp]
        trivial
  all_goals exact ha

/-! ### Passages that move switches, the Sequencer and the queue alone -/

/-- The passage from `s` to `t` moves nothing but switches, the Sequencer and the queue. -/
def OnlySwitching (s t : State) : Prop :=
  ∃ w q e, t = { s with switches := w, seq := q, queue := e }

theorem OnlySwitching.refl (s : State) : OnlySwitching s s := ⟨_, _, _, rfl⟩

theorem OnlySwitching.trans {s t u : State} : OnlySwitching s t → OnlySwitching t u → OnlySwitching s u := by
  rintro ⟨_, _, _, rfl⟩ ⟨_, _, _, rfl⟩
  exact ⟨_, _, _, rfl⟩

theorem OnlySwitching.foldl {α : Type} {f : State → α → State} (h : ∀ s x, OnlySwitching s (f s x)) (l : List α)
    (s : State) : OnlySwitching s (l.foldl f s) := by
  induction l generalizing s with
  | nil => exact .refl s
  | cons a l ih => exact (h s a).trans (ih _)

theorem State.beginUp_switching (s : State) (i : Nat) : OnlySwitching s (s.beginUp i) := by
  unfold State.beginUp
  split
  · exact ⟨_, _, _, rfl⟩
  · dsimp only
    split <;> exact ⟨_, _, _, rfl⟩

theorem runDown_switching (cause : DownCause) (l : List SeqStep) (i : Nat) (s : State) :
    OnlySwitching s (runDown cause l i s) := by
  induction l generalizing i s with
  | nil => exact ⟨_, _, _, rfl⟩
  | cons t rest ih =>
    unfold runDown
    dsimp only
    split
    · split
      · exact .trans ⟨_, _, _, rfl⟩ (ih _ _)
      · exact ⟨_, _, _, rfl⟩
    · exact ⟨_, _, _, rfl⟩

theorem State.powerDown_switching (s : State) (cause : DownCause) : OnlySwitching s (s.powerDown cause) :=
  .trans ⟨_, _, _, rfl⟩ (runDown_switching _ _ _ _)

theorem State.upConditionMet_switching (s : State) (i : Nat) : OnlySwitching s (s.upConditionMet i) := by
  unfold State.upConditionMet
  split
  · exact .refl s
  · split
    · exact s.beginUp_switching _
    · exact ⟨_, _, _, rfl⟩

theorem State.downConditionMet_switching (s : State) (cause : DownCause) (i : Nat) :
    OnlySwitching s (s.downConditionMet cause i) := by
  unfold State.downConditionMet
  split
  · exact .refl s
  · split
    · exact runDown_switching _ _ _ _
    · exact ⟨_, _, _, rfl⟩

theorem State.seqSwitchOn_switching (s : State) (i : Fin 8) : OnlySwitching s (s.seqSwitchOn i) := by
  unfold State.seqSwitchOn
  split
  · split
    · exact s.upConditionMet_switching _
    · exact .refl s
  all_goals exact .refl s

theorem State.seqSwitchFailed_switching (s : State) (i : Fin 8) : OnlySwitching s (s.seqSwitchFailed i) := by
  unfold State.seqSwitchFailed
  split
  · split
    · exact s.powerDown_switching _
    · exact .refl s
  all_goals exact .refl s

theorem State.takeFailures_switching (s : State) : OnlySwitching s s.takeFailures :=
  .trans ⟨_, _, _, rfl⟩ (.foldl State.seqSwitchFailed_switching _ _)

theorem State.seqIndicator_switching (s : State) (i : Fin 8) (v : Bool) : OnlySwitching s (s.seqIndicator i v) := by
  unfold State.seqIndicator
  split
  · split
    · exact s.downConditionMet_switching _ _
    · exact .refl s
  all_goals exact .refl s

theorem State.seqAbort_switching (s : State) (n : Fin 32) : OnlySwitching s (s.seqAbort n) := by
  unfold State.seqAbort
  split
  · exact s.powerDown_switching _
  · exact s.powerDown_switching _
  all_goals exact .refl s

theorem State.goodSample_switching (s : State) (i : Fin 8) (x : Reading) : OnlySwitching s (s.goodSample i x) := by
  unfold State.goodSample
  split
  · exact .trans ⟨_, _, _, rfl⟩ ((State.takeFailures_switching _).trans (State.seqSwitchOn_switching _ _))
  · exact .refl s

theorem State.setIndicator_switching (s : State) (i : Fin 8) (v : Bool) : OnlySwitching s (s.setIndicator i v) := by
  unfold State.setIndicator
  split
  · exact .refl s
  · exact .trans ⟨_, _, _, rfl⟩ (State.seqIndicator_switching _ _ _)

theorem State.watch_switching (s : State) (ch : Fin 18) (i : Fin 8) (good : Bool) :
    OnlySwitching s (s.watch ch i good) := by
  unfold State.watch
  dsimp only
  split
  · cases good
    · exact State.setIndicator_switching _ _ _
    · exact (State.goodSample_switching _ _ _).trans (State.setIndicator_switching _ _ _)
  · exact State.setIndicator_switching _ _ _

theorem stepLimitExpiry_switching (s : State) : OnlySwitching s (stepLimitExpiry s) := by
  unfold stepLimitExpiry
  split
  · split
    · exact .refl s
    · split
      · exact .trans ⟨_, _, _, rfl⟩ (State.powerDown_switching _ _)
      · exact .refl s
  all_goals exact .refl s

theorem dischargeExpiry_switching (s : State) : OnlySwitching s (dischargeExpiry s) := by
  unfold dischargeExpiry
  split
  · split
    · exact .refl s
    · split
      · exact .trans ⟨_, _, _, rfl⟩ (State.downConditionMet_switching _ _ _)
      · exact .refl s
  all_goals exact .refl s

theorem settleExpiry_switching (s : State) : OnlySwitching s (settleExpiry s) := by
  unfold settleExpiry
  split
  · split
    · exact s.beginUp_switching _
    · exact runDown_switching _ _ _ _
    all_goals exact .refl s
  · exact .refl s

/-! ### Passages aside from the stored locks and the entries -/

/-- The passage from `s` to `t` leaves Fault Memory and the entries, and whether the part is ready. -/
structure Aside (s t : State) : Prop where
  ready : t.ready = s.ready
  fault : t.fault = s.fault
  entries : t.entries = s.entries

theorem Aside.refl (s : State) : Aside s s := ⟨rfl, rfl, rfl⟩

theorem Aside.trans {s t u : State} (a : Aside s t) (b : Aside t u) : Aside s u :=
  ⟨b.ready.trans a.ready, b.fault.trans a.fault, b.entries.trans a.entries⟩

/-- A passage aside, seen from a state that shares what it leaves with its start. -/
theorem Aside.of_start {s t u : State} (b : Aside t u) (hr : t.ready = s.ready) (hf : t.fault = s.fault)
    (he : t.entries = s.entries) : Aside s u :=
  Aside.trans ⟨hr, hf, he⟩ b

theorem Aside.foldl {α : Type} {f : State → α → State} (h : ∀ s x, Aside s (f s x)) (l : List α)
    (s : State) : Aside s (l.foldl f s) := by
  induction l generalizing s with
  | nil => exact .refl s
  | cons a l ih => exact (h s a).trans (ih _)

theorem OnlySwitching.aside {s t : State} : OnlySwitching s t → Aside s t := by
  rintro ⟨_, _, _, rfl⟩
  exact ⟨rfl, rfl, rfl⟩

theorem State.indicatorsFalse_aside (s : State) (ch : Fin 18) : Aside s (s.indicatorsFalse ch) :=
  .foldl (fun t i => (t.setIndicator_switching i false).aside) _ _

theorem State.invalidate_aside (s : State) (ch : Fin 18) : Aside s (s.invalidate ch) :=
  (State.indicatorsFalse_aside _ _).of_start rfl rfl rfl

theorem State.applyList_aside (s : State) (l : List ScanStep) : Aside s (s.applyList l) :=
  (Aside.foldl State.invalidate_aside _ _).of_start rfl rfl rfl

theorem State.applyChannel_aside (s : State) (ch : Fin 18) (c : ChannelConfig) : Aside s (s.applyChannel ch c) :=
  (State.invalidate_aside _ _).of_start rfl rfl rfl

theorem State.applyScanLoads_aside (s : State) : Aside s s.applyScanLoads := by
  have channel (t : State) : Aside t (match t.scan.pendingChannel with
      | none => t
      | some (ch, c) => t.applyChannel ch c) := by
    split
    · exact .refl t
    · exact t.applyChannel_aside _ _
  have list : Aside s (match s.scan.pendingList with
      | none => s
      | some l => s.applyList l) := by
    split
    · exact .refl s
    · exact s.applyList_aside _
  exact list.trans (channel _)

theorem State.derivedFrameStart_aside (s : State) : Aside s s.derivedFrameStart := by
  refine .foldl (fun t d => ?_) _ _
  unfold State.derivedIntoForce
  dsimp only
  split <;> exact ⟨rfl, rfl, rfl⟩

theorem State.loadIndicator_aside (s : State) (i : Fin 8) : Aside s (s.loadIndicator i) := by
  unfold State.loadIndicator
  dsimp only
  split
  · exact (State.setIndicator_switching _ _ _).aside
  · exact (State.setIndicator_switching _ _ _).aside.of_start rfl rfl rfl

theorem rampExpiry_aside (i : Fin 8) (s : State) : Aside s (rampExpiry i s) := by
  unfold rampExpiry
  split
  · dsimp only
    split
    · exact (State.takeFailures_switching _).aside.of_start rfl rfl rfl
    · exact ⟨rfl, rfl, rfl⟩
  · exact .refl s

theorem tripAssert_aside (low : Bool) (s : State) : Aside s (tripAssert low s) := by
  unfold tripAssert
  split
  · exact .refl s
  · dsimp only
    split <;> exact ⟨rfl, rfl, rfl⟩

theorem tripRelease_aside (s : State) : Aside s (tripRelease s) := by
  unfold tripRelease
  split <;> exact ⟨rfl, rfl, rfl⟩

theorem State.pick_aside (s : State) (m : Message) (rest : List Message) : Aside s (s.pick m rest).2 := by
  unfold State.pick
  split <;> exact ⟨rfl, rfl, rfl⟩

theorem deriveFrom_aside (l : List (Fin 4)) (s : State) : Aside s (deriveFrom l s).1 := by
  induction l generalizing s with
  | nil => exact .refl s
  | cons d rest ih =>
    refine Aside.trans (t := (s.deriveOne d).1) ?_ (ih _)
    unfold State.deriveOne
    dsimp only
    split
    · exact .refl s
    · split <;> exact ⟨rfl, rfl, rfl⟩

theorem State.writePage_aside (s : State) (page part off : Nat) (b : Byte) : Aside s (s.writePage page part off b) := by
  unfold State.writePage
  repeat' split
  all_goals exact ⟨rfl, rfl, rfl⟩

theorem State.writeRegister_aside (s : State) (a : Nat) (b : Byte) : Aside s (s.writeRegister a b) := by
  unfold State.writeRegister
  repeat' split
  all_goals first
    | exact s.writePage_aside _ _ _ _
    | exact ⟨rfl, rfl, rfl⟩

/-! ### Passages that leave the slots and what may be held -/

/-- An entry that a slot may name: LOCKED, or OFF with no pending load but a locking one (R14, R139). -/
def Entry.mayBeHeld (e : Entry) : Prop :=
  e.state = .locked ∨ e.state = .off ∧ ∀ c, e.pendingLoad = some c → c.isEnabled = true → c.isLock = true

/-- A slot names the entry (R139). -/
def FaultMemory.holds (f : FaultMemory) (n : Fin 32) : Prop := ∃ k : Fin 4, f.slots[k].names = some n

/-- The passage leaves Fault Memory but for the copies and the messages on their way, and whether the part is ready. -/
structure FaultStays (s t : State) : Prop where
  ready : t.ready = s.ready
  fault : t.fault = { s.fault with copies := t.fault.copies, sent := t.fault.sent }

/-- The passage leaves with it every entry that a slot names as it may be held, and sends it no lock-cleared message; in a
part that is not ready no load or message comes to wait. -/
structure NamesStay (s t : State) : Prop extends FaultStays s t where
  entry : ∀ n : Fin 32, s.fault.holds n → s.entries[n].mayBeHeld → t.entries[n].mayBeHeld
  engine : ∀ n : Fin 32, s.fault.holds n → ClearMessage.engine n ∉ s.fault.sent → ClearMessage.engine n ∉ t.fault.sent
  sent : s.ready = false → s.fault.sent = [] → t.fault.sent = []
  loads : s.ready = false → (∀ n : Fin 32, s.entries[n].pendingLoad = none) →
    ∀ n : Fin 32, t.entries[n].pendingLoad = none

theorem FaultStays.refl (s : State) : FaultStays s s := ⟨rfl, rfl⟩

theorem FaultStays.trans {s t u : State} (a : FaultStays s t) (b : FaultStays t u) : FaultStays s u :=
  ⟨b.ready.trans a.ready, b.fault.trans (by rw [a.fault])⟩

theorem FaultStays.foldl {α : Type} {f : State → α → State} (h : ∀ s x, FaultStays s (f s x)) (l : List α)
    (s : State) : FaultStays s (l.foldl f s) := by
  induction l generalizing s with
  | nil => exact .refl s
  | cons a l ih => exact (h s a).trans (ih _)

theorem FaultStays.slots {s t : State} (h : FaultStays s t) : t.fault.slots = s.fault.slots := by rw [h.fault]
theorem FaultStays.medium {s t : State} (h : FaultStays s t) : t.fault.medium = s.fault.medium := by rw [h.fault]
theorem FaultStays.restore {s t : State} (h : FaultStays s t) : t.fault.restore = s.fault.restore := by rw [h.fault]

theorem FaultStays.holds {s t : State} (h : FaultStays s t) {n : Fin 32} : t.fault.holds n ↔ s.fault.holds n := by
  unfold FaultMemory.holds
  rw [h.slots]

theorem FaultStays.locksAgree {s t : State} (h : FaultStays s t) (hl : s.locksAgree) : t.locksAgree := by
  unfold State.locksAgree
  rw [h.ready, h.fault]
  exact hl

theorem NamesStay.refl (s : State) : NamesStay s s :=
  ⟨.refl s, fun _ _ => id, fun _ _ => id, fun _ => id, fun _ => id⟩

theorem NamesStay.trans {s t u : State} (a : NamesStay s t) (b : NamesStay t u) : NamesStay s u where
  toFaultStays := a.toFaultStays.trans b.toFaultStays
  entry := fun n h => b.entry n (a.holds.2 h) ∘ a.entry n h
  engine := fun n h => b.engine n (a.holds.2 h) ∘ a.engine n h
  sent := fun h => b.sent (a.ready.trans h) ∘ a.sent h
  loads := fun h => b.loads (a.ready.trans h) ∘ a.loads h

theorem NamesStay.foldl {α : Type} {f : State → α → State} (h : ∀ s x, NamesStay s (f s x)) (l : List α)
    (s : State) : NamesStay s (l.foldl f s) := by
  induction l generalizing s with
  | nil => exact .refl s
  | cons a l ih => exact (h s a).trans (ih _)

theorem Aside.namesStay {s t : State} (h : Aside s t) : NamesStay s t where
  ready := h.ready
  fault := by rw [h.fault]
  entry := fun n _ => by rw [h.entries]; exact id
  engine := fun n _ => by rw [h.fault]; exact id
  sent := fun _ => by rw [h.fault]; exact id
  loads := fun _ => by rw [h.entries]; exact id

theorem NamesStay.slotsNameApart {s t : State} (h : NamesStay s t) (hn : s.slotsNameApart) : t.slotsNameApart := by
  obtain ⟨h1, h2, h3, h4, h5⟩ := hn
  unfold State.slotsNameApart
  rw [h.slots, h.medium, h.ready, h.restore]
  refine ⟨h1, h2, h3, fun k n hk => ?_, fun hr => ?_⟩
  · exact ⟨h.entry n ⟨k, hk⟩ (h4 k n hk).1, h.engine n ⟨k, hk⟩ (h4 k n hk).2⟩
  · obtain ⟨g1, g2, g3⟩ := h5 hr
    exact ⟨h.sent hr g1, h.loads hr g2, g3⟩

/-- One entry moves, keeping what a slot that names it asks. -/
theorem NamesStay.entryOnly {s t : State} (n : Fin 32) (e : Entry) (hr : t.ready = s.ready) (hf : t.fault = s.fault)
    (he : t.entries = s.entries.set n e)
    (hm : s.fault.holds n → s.entries[n].mayBeHeld → e.mayBeHeld)
    (hl : s.ready = false → s.entries[n].pendingLoad = none → e.pendingLoad = none) : NamesStay s t where
  ready := hr
  fault := by rw [hf]
  entry := fun m hm' => by
    rw [he, getElem_set_fin]
    split
    · rename_i hnm
      subst hnm
      exact hm hm'
    · exact id
  engine := fun m _ => by rw [hf]; exact id
  sent := fun _ => by rw [hf]; exact id
  loads := fun h g m => by
    rw [he, getElem_set_fin]
    split
    · exact hl h (g n)
    · exact g m

/-! ### Loads and lettings go -/

/-- A load that is applied is the one that the slot naming its entry asks for (R14, R17). -/
theorem State.applyLoad_namesStay {s : State} {n : Fin 32} {c : EntryConfig}
    (h : s.fault.holds n → s.entries[n].mayBeHeld → c.isEnabled = true → c.isLock = true) :
    NamesStay s (s.applyLoad n c) := by
  have hx : NamesStay s (s.modEntry n fun _ => { Entry.default with config := c, state := s.stateAfterLoad n c }) := by
    refine .entryOnly n _ rfl rfl rfl (fun hn hm => ?_) fun _ _ => rfl
    unfold State.stateAfterLoad
    cases he : c.isEnabled
    · exact .inr ⟨by simp, fun _ h => by cases h⟩
    · refine .inl ?_
      simp [h hn hm he, (s.fault.slotNaming_isSome n).2 hn]
  refine hx.trans (Aside.namesStay ?_)
  unfold State.applyLoad
  dsimp only
  split <;> exact ⟨rfl, rfl, rfl⟩

theorem State.dealLoad_namesStay (s : State) (n : Fin 32) : NamesStay s (s.dealLoad n) := by
  unfold State.dealLoad
  split
  · exact .refl s
  · rename_i c hc
    split
    · refine .entryOnly n { s.entries[n] with pendingLoad := none } rfl rfl rfl (fun _ hm => ?_) fun _ _ => rfl
      rcases hm with hm | ⟨hm, _⟩
      · exact .inl hm
      · exact .inr ⟨hm, fun _ h => by cases h⟩
    · rename_i ha
      refine State.applyLoad_namesStay fun _ hm => ?_
      rcases hm with hm | ⟨_, hm⟩
      · rw [hm] at ha
        exact absurd rfl ha
      · exact hm c hc

theorem State.dealLoads_namesStay (s : State) : NamesStay s s.dealLoads := .foldl State.dealLoad_namesStay _ _

theorem State.becomeQuiet_namesStay (s : State) : NamesStay s s.becomeQuiet :=
  s.applyScanLoads_aside.namesStay.trans (State.dealLoads_namesStay _)

theorem State.frameStart_namesStay (s : State) : NamesStay s s.frameStart := by
  unfold State.frameStart
  dsimp only
  have start : Aside s (s.applyScanLoads.modScan fun u => { u with frameNumber := u.frameNumber + 1 }) :=
    s.applyScanLoads_aside.trans ⟨rfl, rfl, rfl⟩
  refine start.namesStay.trans ((State.dealLoads_namesStay _).trans ?_)
  generalize State.dealLoads _ = t
  refine (State.derivedFrameStart_aside t).namesStay.trans ?_
  generalize t.derivedFrameStart = u
  exact Aside.namesStay ⟨rfl, rfl, rfl⟩

theorem State.trigger_namesStay (s : State) : NamesStay s s.trigger.1 := by
  unfold State.trigger
  split
  · exact s.frameStart_namesStay
  · split <;> exact Aside.namesStay ⟨rfl, rfl, rfl⟩

/-- An entry that no slot names returns to IDLE (R38, R46). -/
theorem State.recover_namesStay {s : State} {n : Fin 32} (h : s.fault.holds n → ¬s.entries[n].mayBeHeld)
    (c : RecoverCause) : NamesStay s (s.recover n c) := by
  refine .entryOnly n (s.entries[n].rest .idle) ?_ ?_ ?_ (fun hn hm => absurd hm (h hn)) fun _ => id
  all_goals
    rw [s.recover_eq]
    rfl

theorem Entry.not_mayBeHeld {e : Entry} (hl : e.state ≠ .locked) (ho : e.state ≠ .off) : ¬e.mayBeHeld := by
  simp [Entry.mayBeHeld, hl, ho]

theorem recoveryExpiry_namesStay (n : Fin 32) (s : State) : NamesStay s (recoveryExpiry n s) := by
  unfold recoveryExpiry
  split
  · rename_i h
    exact State.recover_namesStay (fun _ => Entry.not_mayBeHeld (by rw [h.1]; simp) (by rw [h.1]; simp)) _
  · exact .refl s

/-! ### Messages of an erase completion -/

theorem State.recover_faultStays (s : State) (n : Fin 32) (c : RecoverCause) : FaultStays s (s.recover n c) := by
  rw [s.recover_eq]
  exact ⟨rfl, rfl⟩

theorem State.lockCleared_faultStays (s : State) (n : Fin 32) : FaultStays s (s.lockCleared n) := by
  unfold State.lockCleared
  split
  · exact s.recover_faultStays _ _
  · exact .refl s

theorem State.receive_faultStays (s : State) (m : ClearMessage) : FaultStays s (s.receive m) := by
  cases m with
  | engine n => exact s.lockCleared_faultStays n
  | store n => exact ⟨rfl, rfl⟩

theorem State.receiveWhere_faultStays (p : ClearMessage → Bool) (s : State) : FaultStays s (s.receiveWhere p) := by
  refine FaultStays.trans (t := s.modFault fun f => { f with sent := f.sent.filter fun m => !p m }) ⟨rfl, rfl⟩ ?_
  exact .foldl State.receive_faultStays _ _

theorem State.lockCleared_namesStay {s : State} {n : Fin 32} (h : ¬s.fault.holds n) : NamesStay s (s.lockCleared n) := by
  unfold State.lockCleared
  split
  · exact State.recover_namesStay (fun hn => absurd hn h) _
  · exact .refl s

/-- The engine is told of no entry that a slot names. -/
theorem State.receiveList_namesStay {l : List ClearMessage} {s : State}
    (h : ∀ n, ClearMessage.engine n ∈ l → ¬s.fault.holds n) : NamesStay s (l.foldl State.receive s) := by
  induction l generalizing s with
  | nil => exact .refl s
  | cons m l ih =>
    have first : NamesStay s (s.receive m) := by
      cases m with
      | engine n => exact State.lockCleared_namesStay (h n (by simp))
      | store n => exact Aside.namesStay ⟨rfl, rfl, rfl⟩
    exact first.trans (ih fun n hn => mt first.holds.1 (h n (by simp [hn])))

/-- What of the messages on their way is taken and what stays. -/
theorem State.receiveWhere_namesStay (p : ClearMessage → Bool) {s : State} (h : s.slotsNameApart) :
    NamesStay s (s.receiveWhere p) := by
  obtain ⟨_, _, _, h4, _⟩ := h
  have taken : NamesStay s (s.modFault fun f => { f with sent := f.sent.filter fun m => !p m }) := by
    refine ⟨⟨rfl, rfl⟩, fun _ _ => id, fun _ _ => mt fun hm => (List.mem_filter.1 hm).1, fun _ he => ?_, fun _ => id⟩
    simp [he]
  refine taken.trans (State.receiveList_namesStay fun n hn => ?_)
  rintro ⟨k, hk⟩
  exact (h4 k n hk).2 (List.mem_filter.1 hn).1

/-! ### Names in a ready part -/

/-- What `State.slotsNameApart` says of a ready part: no two slots name one entry, the medium names nothing that the view
does not, and an entry that a slot names is one that may be held, with no message that would free it on its way. -/
structure State.NamesApart (s : State) : Prop where
  unique : ∀ (k l : Fin 4) (n : Fin 32), s.fault.slots[k].names = some n → s.fault.slots[l].names = some n → k = l
  stored : ∀ (k : Fin 4) (n : Fin 32), s.fault.medium[k].restored.names = some n → s.fault.slots[k].names = some n
  held : ∀ n : Fin 32, s.fault.holds n → s.entries[n].mayBeHeld ∧ ClearMessage.engine n ∉ s.fault.sent

theorem State.slotsNameApart_ready {s : State} (h : s.ready = true) : s.slotsNameApart ↔ s.NamesApart := by
  constructor
  · rintro ⟨h1, _, h3, h4, _⟩
    exact ⟨h1, fun k n => h3 k n (.inl h), fun n ⟨k, hk⟩ => h4 k n hk⟩
  · rintro ⟨h1, h2, h3⟩
    refine ⟨h1, fun k l n hk hl => h1 k l n (h2 k n hk) (h2 l n hl), fun k n _ => h2 k n, fun k n hk => h3 n ⟨k, hk⟩, ?_⟩
    exact fun hr => absurd (h.symm.trans hr) (by simp)

/-- Fault Memory moves, no slot comes to name an entry it did not name, and the medium names nothing more than the view. -/
theorem State.NamesApart.moveFault {s : State} {g : FaultMemory} (h : s.NamesApart)
    (hs : ∀ (k : Fin 4) (n : Fin 32), g.slots[k].names = some n → s.fault.slots[k].names = some n)
    (hm : ∀ (k : Fin 4) (n : Fin 32), g.medium[k].restored.names = some n → g.slots[k].names = some n)
    (hg : g.sent = s.fault.sent) : ({ s with fault := g } : State).NamesApart where
  unique := fun k l n hk hl => h.unique k l n (hs k n hk) (hs l n hl)
  stored := hm
  held := fun n ⟨k, hk⟩ => by
    rw [show ({ s with fault := g } : State).fault.sent = s.fault.sent from hg]
    exact h.held n ⟨k, hs k n hk⟩

/-- An empty slot names no entry (R139). -/
theorem SlotView.names_of_empty {v : SlotView} (h : v.nonEmpty = false) : v.names = none := by
  cases v <;> simp_all [SlotView.nonEmpty, SlotView.names]

/-! ### Lock requests and qualifications -/

/-- A part that is ready, in which the slots name entries apart and no lock-cleared message is on its way to the engine. -/
structure State.Apart (s : State) : Prop where
  ready : s.ready = true
  names : s.slotsNameApart
  told : ∀ n, ClearMessage.engine n ∉ s.fault.sent

theorem NamesStay.apart {s t : State} (h : NamesStay s t) (hs : t.fault.sent = s.fault.sent) (ha : s.Apart) : t.Apart :=
  ⟨h.ready.trans ha.ready, h.slotsNameApart ha.names, fun n => by rw [hs]; exact ha.told n⟩

theorem Aside.apart {s t : State} (h : Aside s t) (ha : s.Apart) : t.Apart :=
  h.namesStay.apart (by rw [h.fault]) ha

/-- A reservation makes one slot WRITING; of Fault Memory the work list and the phase may move with it (R143, R149). -/
theorem FaultMemory.reserve_slots {f : FaultMemory} {k : Fin 4} (h : f.slots[k].nonEmpty = false) (n : Fin 32)
    (mask : Byte) : ∃ x b w p, f.reserve k n mask =
      { f with slots := f.slots.set k (.writing n mask x b), work := w, phase := p } := by
  rcases FaultMemory.reserve_cases h n mask with ⟨_, e⟩ | ⟨_, _, e⟩ | ⟨_, _, e⟩
  all_goals
    rw [e]
    exact ⟨_, _, _, _, rfl⟩

/-- A lock request of an entry that is LOCKED and that no slot names leaves the slots naming entries apart (R143). -/
theorem State.lockRequest_apart {s : State} {n : Fin 32} (ha : s.Apart) (hl : s.entries[n].state = .locked)
    (hn : ¬s.fault.holds n) (mask : Byte) : (s.lockRequest n mask).Apart := by
  unfold State.lockRequest
  split
  · rename_i k hk
    have he : s.fault.slots[k].nonEmpty = false := by simpa using FaultMemory.findSlot_some hk
    obtain ⟨x, b, w, p, e⟩ := FaultMemory.reserve_slots he n mask
    have old := (State.slotsNameApart_ready ha.ready).1 ha.names
    have free : s.fault.slots[k].names = none := SlotView.names_of_empty he
    refine ⟨ha.ready, (State.slotsNameApart_ready (by exact ha.ready)).2 ?_, ?_⟩
    · change State.NamesApart { s with fault := (s.fault.reserve k n mask).dropCopy n }
      rw [e, FaultMemory.dropCopy_eq]
      have names (j : Fin 4) : (s.fault.slots.set k (.writing n mask x b))[j].names =
          if k = j then some n else s.fault.slots[j].names := by
        rw [getElem_set_fin]
        split <;> rfl
      have others {j : Fin 4} (hj : s.fault.slots[j].names = some n) : False := hn ⟨j, hj⟩
      refine ⟨fun j l m hj hm => ?_, fun j m hj => ?_, fun m ⟨j, hj⟩ => ?_⟩
      · dsimp only at hj hm
        rw [names] at hj hm
        split at hj <;> split at hm
        · simp_all
        · cases hj
          exact (others hm).elim
        · cases hm
          exact (others hj).elim
        · exact old.unique j l m hj hm
      · have hjm := old.stored j m hj
        dsimp only
        rw [names, if_neg]
        · exact hjm
        · rintro rfl
          rw [free] at hjm
          cases hjm
      · refine ⟨?_, ha.told m⟩
        dsimp only at hj
        rw [names] at hj
        split at hj
        · cases hj
          exact .inl hl
        · exact (old.held m ⟨j, hj⟩).1
    · intro m
      change ClearMessage.engine m ∉ ((s.fault.reserve k n mask).dropCopy n).sent
      rw [e]
      exact ha.told m
  · exact Aside.apart (s := s.modFault fun f => f.dropCopy n) ⟨rfl, rfl, rfl⟩ ⟨ha.ready, ha.names, ha.told⟩

/-- The copy of a capture for Fault Memory names no entry in a slot (R132). -/
theorem State.capture_namesStay (s : State) (n : Fin 32) (d : DwellRecord) :
    NamesStay s (s.capture n d).1 ∧ (s.capture n d).1.fault.sent = s.fault.sent := by
  unfold State.capture
  dsimp only
  split <;> exact ⟨⟨⟨rfl, rfl⟩, fun _ _ => id, fun _ _ => id, fun _ => id, fun _ => id⟩, rfl⟩

/-- A qualification of an entry in IDLE or PENDING, which no slot names, leaves the slots naming entries apart (R30 to R35,
R143). -/
theorem State.qualify_apart {s : State} {n : Fin 32} (d : DwellRecord) (ha : s.Apart)
    (hs : s.entries[n].state = .idle ∨ s.entries[n].state = .pending) : (s.qualify n d).Apart := by
  have free : ¬s.fault.holds n := by
    intro h
    have hm := (((State.slotsNameApart_ready ha.ready).1 ha.names).held n h).1
    refine Entry.not_mayBeHeld ?_ ?_ hm
    all_goals rcases hs with hs | hs <;> rw [hs] <;> simp
  obtain ⟨hcap, hsent⟩ := s.capture_namesStay n d
  have hcapA : (s.capture n d).1.Apart := hcap.apart hsent ha
  have hcapF : ¬(s.capture n d).1.fault.holds n := mt hcap.holds.1 free
  unfold State.qualify
  dsimp only
  generalize (s.capture n d).2 = captureId
  generalize (s.capture n d).1 = t at *
  have hmod : NamesStay t (t.modEntry n fun e => e.qualified captureId) :=
    .entryOnly n (t.entries[n].qualified captureId) rfl rfl rfl (fun h => absurd h hcapF) fun _ => id
  have hmodA := hmod.apart rfl hcapA
  have hmodF := mt hmod.holds.1 hcapF
  have hmodL : (t.modEntry n fun e => e.qualified captureId).entries[n].config.isLock = true →
      (t.modEntry n fun e => e.qualified captureId).entries[n].state = .locked := by
    simp only [State.modEntry_entries, getElem_set_fin, if_true, Entry.qualified]
    intro h
    rw [if_pos h]
  generalize (t.modEntry n fun e => e.qualified captureId) = u at *
  unfold State.announce
  dsimp only
  rw [State.joinMask_ite]
  generalize hv : (u.joinMask (.e n) u.entries[n].config.mask).post _ _ _ _ = v
  have hpost : Aside u v := hv ▸ ⟨rfl, rfl, rfl⟩
  have hreq : (if u.entries[n].config.isLock then v.lockRequest n u.entries[n].config.mask else v).Apart := by
    split
    · rename_i hl
      exact State.lockRequest_apart (hpost.apart hmodA) (by rw [hpost.entries]; exact hmodL hl)
        (by rw [hpost.fault]; exact hmodF) _
    · exact hpost.apart hmodA
  split
  · exact (State.seqAbort_switching _ n).aside.apart hreq
  · exact hreq

/-! ### Evaluations and the messages of a step -/

theorem State.evaluate_apart {s : State} (r : Fin 22) (n : Fin 32) (ha : s.Apart) : (s.evaluate r n).Apart := by
  have moved {t : State} (e : Entry) (hm : ¬s.entries[n].mayBeHeld) (hr : t.ready = s.ready) (hf : t.fault = s.fault)
      (he : t.entries = s.entries.set n e) (hl : e.pendingLoad = s.entries[n].pendingLoad) : t.Apart :=
    NamesStay.apart (.entryOnly n e hr hf he (fun _ h => absurd h hm) fun _ h => hl.trans h) (by rw [hf]) ha
  unfold State.evaluate
  dsimp only
  split
  · split
    · exact ha
    · rename_i hs
      unfold State.evaluateIdle
      split
      · split
        · exact State.qualify_apart _ ha (.inl hs)
        · exact moved _ (Entry.not_mayBeHeld (by rw [hs]; simp) (by rw [hs]; simp)) rfl rfl rfl rfl
      · exact ha
    · rename_i hs
      have hm := Entry.not_mayBeHeld (e := s.entries[n]) (by rw [hs]; simp) (by rw [hs]; simp)
      unfold State.evaluatePending
      dsimp only
      split
      · exact moved _ hm rfl rfl rfl rfl
      · split
        · exact moved { s.entries[n].rest .idle with transients := satSucc8 s.entries[n].transients } hm rfl rfl rfl rfl
        · exact moved _ hm rfl rfl rfl rfl
    · rename_i hs
      have hm := Entry.not_mayBeHeld (e := s.entries[n]) (by rw [hs]; simp) (by rw [hs]; simp)
      unfold State.evaluateAsserted
      dsimp only
      split
      · split
        · exact moved _ hm rfl rfl rfl rfl
        · split
          · rw [s.recover_eq]
            exact moved (s.entries[n].rest .idle) hm rfl rfl rfl rfl
          · exact moved _ hm rfl rfl rfl rfl
      · exact ha
    · rename_i hs
      have hm := Entry.not_mayBeHeld (e := s.entries[n]) (by rw [hs]; simp) (by rw [hs]; simp)
      split
      · exact ha
      · exact moved _ hm rfl rfl rfl rfl
    · rename_i hs
      have hm := Entry.not_mayBeHeld (e := s.entries[n]) (by rw [hs]; simp) (by rw [hs]; simp)
      split
      · exact ha
      · exact moved _ hm rfl rfl rfl rfl
    · exact ha
  · exact ha

theorem State.take_apart {s : State} (m : Message) (ha : s.Apart) : (s.take m).1.Apart := by
  cases m with
  | update ch code => exact Aside.apart (s := s) ⟨rfl, rfl, rfl⟩ ha
  | evaluate r n => exact State.evaluate_apart r n ha
  | watch ch i good => exact (s.watch_switching ch i good).aside.apart ha

theorem drain_apart (fuel : Nat) (l : List Message) {s : State} (ha : s.Apart) : (drain fuel l s).Apart := by
  induction fuel generalizing l s with
  | zero => exact ha
  | succ fuel ih =>
    cases l with
    | nil => exact ha
    | cons m rest => exact ih _ (State.take_apart _ ((s.pick_aside m rest).apart ha))

theorem State.handOver_apart {s : State} (x : StepCodes) (ha : s.Apart) : (s.handOver x).Apart := by
  unfold State.handOver
  split
  · exact ha
  · exact drain_apart _ _ ha

theorem State.derivedFrameEnd_apart {s : State} (ha : s.Apart) : s.derivedFrameEnd.Apart :=
  drain_apart _ _ ((deriveFrom_aside _ s).apart ha)

theorem State.frameEnd_names {s : State} (ha : s.Apart) : s.frameEnd.slotsNameApart := by
  have h := State.derivedFrameEnd_apart ha
  unfold State.frameEnd
  dsimp only
  generalize s.derivedFrameEnd = t at h
  have h1 : (t.modScan fun u => { u with scanning := false, stepIndex := 0, sampled := none }).slotsNameApart :=
    Aside.namesStay ⟨rfl, rfl, rfl⟩ |>.slotsNameApart h.names
  generalize (t.modScan fun u => { u with scanning := false, stepIndex := 0, sampled := none }) = u at h1
  split
  · refine (State.frameStart_namesStay _).slotsNameApart ?_
    exact Aside.namesStay ⟨rfl, rfl, rfl⟩ |>.slotsNameApart h1
  · split
    · exact u.becomeQuiet_namesStay.slotsNameApart h1
    · exact h1

/-! ### What one step keeps of the stored locks -/

/-- From a state whose slots agree with the medium the passage leaves them agreeing, and with the names apart leaves
them apart. -/
structure LocksKept (s t : State) : Prop where
  agree : s.startingClean → s.locksAgree → t.locksAgree
  apart : s.startingClean → s.locksAgree → s.slotsNameApart → t.slotsNameApart

theorem NamesStay.locksKept {s t : State} (h : NamesStay s t) : LocksKept s t :=
  ⟨fun _ => h.locksAgree, fun _ _ => h.slotsNameApart⟩

theorem Aside.locksKept {s t : State} (h : Aside s t) : LocksKept s t := h.namesStay.locksKept

theorem LocksKept.aside {s t u : State} (h : LocksKept s t) (g : Aside t u) : LocksKept s u :=
  ⟨fun hc hl => g.namesStay.locksAgree (h.agree hc hl), fun hc hl hn => g.namesStay.slotsNameApart (h.apart hc hl hn)⟩

/-- With an operation in flight the part is ready (R183). -/
theorem State.startingClean.ready_of_phase {s : State} (h : s.startingClean) {p : OpPhase} (hp : s.fault.phase = some p) :
    s.ready = true := by
  obtain ⟨_, _, h3⟩ := h
  by_contra hr
  have := (h3 (by simpa using hr)).2.2.2.1
  rw [hp] at this
  cases this

theorem takeCommand_locksKept {s : State} {body : State → Reply} (h : LocksKept s (body s).state) :
    LocksKept s (takeCommand body s) := by
  unfold takeCommand
  split
  · exact h.aside ⟨rfl, rfl, rfl⟩
  · exact (Aside.refl s).locksKept

theorem takeWrite_locksKept {s : State} {a : Byte} {f : State → State} (h : LocksKept s (f s)) :
    LocksKept s (takeWrite a f s) := by
  unfold takeWrite
  split
  · exact h.aside ⟨rfl, rfl, rfl⟩
  · exact (Aside.refl s).locksKept

theorem awake_locksKept {s : State} {f : State → State} (h : LocksKept s (f s)) : LocksKept s (awake f s) := by
  unfold awake
  split
  · exact (Aside.refl s).locksKept
  · exact h

/-- Only Fault Memory moves, in a ready part. -/
theorem LocksKept.ofFault {s t : State} {g : FaultMemory} (ht : Aside { s with fault := g } t)
    (hr : s.startingClean → s.ready = true) (hl : s.fault.Agreeing → g.Agreeing)
    (hn : s.fault.Agreeing → s.NamesApart → ({ s with fault := g } : State).NamesApart) : LocksKept s t := by
  refine LocksKept.aside (t := { s with fault := g }) ⟨fun hc h => ?_, fun hc h hs => ?_⟩ ht
  · exact (State.locksAgree_ready (by exact hr hc)).2 (hl ((State.locksAgree_ready (hr hc)).1 h))
  · exact (State.slotsNameApart_ready (by exact hr hc)).2
      (hn ((State.locksAgree_ready (hr hc)).1 h) ((State.slotsNameApart_ready (hr hc)).1 hs))

/-! ### Names through the work list -/

/-- The start of the next item leaves what every slot names. -/
theorem FaultMemory.startHead_names (f : FaultMemory) : ∃ v p, f.startHead = { f with slots := v, phase := p } ∧
    ∀ k : Fin 4, v[k].names = f.slots[k].names := by
  by_cases hw : f.work = []
  · exact ⟨_, _, FaultMemory.startHead_nil hw, fun _ => rfl⟩
  · obtain ⟨i, rest, hw⟩ := List.exists_cons_of_ne_nil hw
    by_cases hk : i.kind = .program
    · rw [FaultMemory.startHead_program hw hk]
      unfold FaultMemory.startProgram
      split
      · rename_i e m x b hs
        refine ⟨_, _, rfl, fun k => ?_⟩
        rw [getElem_set_fin]
        split
        · rename_i h
          rw [← h, hs]
          rfl
        · rfl
      all_goals exact ⟨_, _, rfl, fun _ => rfl⟩
    · exact ⟨_, _, FaultMemory.startHead_mark hw hk, fun _ => rfl⟩

theorem FaultMemory.finishHead_names (f : FaultMemory) :
    ∃ v w p, f.finishHead = { f with slots := v, work := w, phase := p } ∧
      ∀ k : Fin 4, v[k].names = f.slots[k].names := by
  obtain ⟨v, p, h, hv⟩ := FaultMemory.startHead_names { f with work := f.work.tail }
  exact ⟨v, _, p, h, hv⟩

/-- The end of the item in flight leaves names apart. -/
theorem State.NamesApart.finishHead {s : State} (h : s.NamesApart) : (s.modFault FaultMemory.finishHead).NamesApart := by
  obtain ⟨v, w, p, e, hv⟩ := s.fault.finishHead_names
  change State.NamesApart { s with fault := s.fault.finishHead }
  rw [e]
  refine h.moveFault (fun k n hk => ?_) (fun k n hk => ?_) rfl
  · rw [← hv k]
    exact hk
  · rw [hv k]
    exact h.stored k n hk

/-- A slot keeps its name and the others their views, while the medium stays. -/
theorem State.NamesApart.setSlot {s : State} {g : FaultMemory} (h : s.NamesApart) (k : Fin 4) (v : SlotView)
    (hv : v.names = s.fault.slots[k].names) (hs : g.slots = s.fault.slots.set k v) (hm : g.medium = s.fault.medium)
    (hg : g.sent = s.fault.sent) : ({ s with fault := g } : State).NamesApart := by
  have names (j : Fin 4) : g.slots[j].names = s.fault.slots[j].names := by
    rw [hs, getElem_set_fin]
    split
    · rename_i e
      rw [← e, hv]
    · rfl
  refine h.moveFault (fun j n hj => ?_) (fun j n hj => ?_) hg
  · rw [← names j]
    exact hj
  · rw [names j]
    rw [hm] at hj
    exact h.stored j n hj

/-- One slot's medium changes, and names after it only what the slot does. -/
theorem State.NamesApart.setMedium {s : State} {g : FaultMemory} (h : s.NamesApart) (k : Fin 4) (d : SlotMedium)
    (hd : ∀ n, d.restored.names = some n → s.fault.slots[k].names = some n) (hs : g.slots = s.fault.slots)
    (hm : g.medium = s.fault.medium.set k d) (hg : g.sent = s.fault.sent) :
    ({ s with fault := g } : State).NamesApart := by
  refine h.moveFault (fun j n hj => ?_) (fun j n hj => ?_) hg
  · rw [← hs]
    exact hj
  · rw [hm, getElem_set_fin] at hj
    rw [hs]
    split at hj
    · rename_i e
      rw [← e]
      exact hd n hj
    · exact h.stored j n hj

/-- A slot is emptied, with its medium blank. -/
theorem State.NamesApart.clearSlot {s : State} {g : FaultMemory} (h : s.NamesApart) (k : Fin 4)
    (hs : g.slots = s.fault.slots.set k (.empty false)) (hm : g.medium = s.fault.medium.set k SlotMedium.blank)
    (hg : g.sent = s.fault.sent) : ({ s with fault := g } : State).NamesApart := by
  refine h.moveFault (fun j n hj => ?_) (fun j n hj => ?_) hg
  · rw [hs, getElem_set_fin] at hj
    split at hj
    · cases hj
    · exact hj
  · rw [hm, getElem_set_fin] at hj
    rw [hs, getElem_set_fin]
    split at hj
    · cases hj
    · rename_i e
      rw [if_neg e]
      exact h.stored j n hj

/-! ### Programs and erases -/

theorem programPhaseEnd_locksKept (s : State) : LocksKept s (s.modFault FaultMemory.programPhaseEnd) := by
  rcases s.fault.programPhaseEnd_cases with h | ⟨k, e, m, x, b, hs, hcase⟩
  · refine Aside.locksKept ⟨rfl, h, rfl⟩
  · have hr (hc : s.startingClean) : s.ready = true := by
      rcases hcase with ⟨hk, _⟩ | ⟨hk, _⟩
      all_goals
        obtain ⟨_, _, _, _, hp, _⟩ := FaultMemory.programming_some hk
        exact hc.ready_of_phase hp
    refine .ofFault (.refl _) hr (fun ha => ha.programPhaseEnd) fun ha hn => ?_
    rcases hcase with ⟨hk, h⟩ | ⟨hk, h⟩
    all_goals rw [h]
    · exact hn.moveFault (fun _ _ => id) hn.stored rfl
    · refine hn.setMedium k _ (fun n hd => ?_) rfl rfl rfl
      obtain ⟨_, h, hh, rfl⟩ := (SlotMedium.restored_names_iff _ n).1 hd
      cases hh
      rw [hs]
      rfl

theorem programComplete_locksKept (s : State) : LocksKept s (programComplete s) := by
  unfold programComplete
  split
  · exact (Aside.refl s).locksKept
  · rename_i k hk
    split
    · rename_i e m x b hs
      obtain ⟨i, rest, hw, rfl, hp, hkind⟩ := FaultMemory.programming_some hk
      have written (ha : s.fault.Agreeing) : s.fault.medium[i.slot] =
          { SlotMedium.blank with header := .whole { entry := e, mask := m, serial := x } } := by
        simpa using FaultMemory.programmed_of_agrees hs ((phaseOf_head hw).trans hp) (ha.slot _)
      refine .ofFault (g := ({ s.fault with
          medium := s.fault.medium.set i.slot { s.fault.medium[i.slot] with body := .whole b }
          slots := s.fault.slots.set i.slot (.valid { entry := e, mask := m, serial := x } (some b)) }
            : FaultMemory).finishHead) ⟨rfl, rfl, rfl⟩ (fun hc => hc.ready_of_phase hp) (fun ha => ?_) fun ha hn => ?_
      · refine ha.finish hw rfl (fun j hj => ?_) (.inl ⟨{ entry := e, mask := m, serial := x }, some b, ?_, ?_⟩)
        · simp only [getElem_set_fin, hj.symm, if_false, true_and]
        · rw [getElem_set_fin, if_pos rfl]
        · rw [getElem_set_fin, if_pos rfl, written ha]
          rfl
      · refine State.NamesApart.finishHead (s := { s with fault := { s.fault with
          medium := s.fault.medium.set i.slot { s.fault.medium[i.slot] with body := .whole b }
          slots := s.fault.slots.set i.slot (.valid { entry := e, mask := m, serial := x } (some b)) } }) ?_
        have slot : (s.fault.slots[i.slot]).names = some e := by
          rw [hs]
          rfl
        have valid := hn.setSlot (g := { s.fault with
          slots := s.fault.slots.set i.slot (.valid { entry := e, mask := m, serial := x } (some b)) }) i.slot
          (.valid { entry := e, mask := m, serial := x } (some b)) slot.symm rfl rfl rfl
        refine valid.setMedium i.slot _ (fun n hd => ?_) rfl rfl rfl
        rw [written ha] at hd
        dsimp only
        rw [getElem_set_fin, if_pos rfl]
        exact hd
    all_goals exact (Aside.refl s).locksKept

theorem erasePhaseEnd_locksKept (s : State) : LocksKept s (s.modFault FaultMemory.erasePhaseEnd) := by
  rcases s.fault.erasePhaseEnd_cases with h | ⟨k, w, hcase⟩
  · refine Aside.locksKept ⟨rfl, h, rfl⟩
  · have hr (hc : s.startingClean) : s.ready = true := by
      rcases hcase with ⟨hk, _⟩ | ⟨hk, _⟩
      all_goals
        obtain ⟨_, _, _, _, _, hp, _⟩ := FaultMemory.erasingNow_some hk
        exact hc.ready_of_phase hp
    refine .ofFault (.refl _) hr (fun ha => ha.erasePhaseEnd) fun ha hn => ?_
    rcases hcase with ⟨hk, h⟩ | ⟨hk, h⟩
    all_goals
      rw [h]
      refine hn.setMedium k _ (fun n hd => ?_) rfl rfl rfl
      simp [SlotMedium.restored_names_iff] at hd

theorem cleanupComplete_locksKept (s : State) : LocksKept s (s.modFault FaultMemory.cleanupComplete) := by
  rcases s.fault.cleanupComplete_cases with h | ⟨k, hcase⟩
  · refine Aside.locksKept ⟨rfl, h, rfl⟩
  · have hr (hc : s.startingClean) : s.ready = true := by
      rcases hcase with ⟨hk, _⟩ | ⟨hk, _⟩
      all_goals
        obtain ⟨_, _, _, _, _, hp, _⟩ := FaultMemory.erasingNow_some hk
        exact hc.ready_of_phase hp
    refine .ofFault (.refl _) hr (fun ha => ha.cleanupComplete) fun ha hn => ?_
    rcases hcase with ⟨hk, h⟩ | ⟨hk, h⟩
    all_goals
      obtain ⟨hv, hd⟩ := ha.unmarked hk
      rw [h, hd]
    · refine State.NamesApart.finishHead (s := { s with fault := { s.fault with
        medium := s.fault.medium.set k SlotMedium.blank, slots := s.fault.slots.set k (.empty false) } }) ?_
      exact hn.clearSlot k rfl rfl rfl
    · obtain ⟨e, m, b, hs⟩ := hv
      rw [FaultMemory.startProgram_of_writing (by exact hs)]
      have blank := hn.setMedium (g := { s.fault with medium := s.fault.medium.set k SlotMedium.blank }) k
        SlotMedium.blank (fun n h => by cases h) rfl rfl rfl
      refine blank.setSlot k _ ?_ rfl rfl rfl
      dsimp only
      rw [hs]
      rfl

/-! ### The erase completion -/

/-- A message of an erase completion is sent in a ready part, and none to free an entry that a slot names. -/
theorem State.send_namesStay {s : State} {m : ClearMessage} (hr : s.ready = true)
    (h : ∀ n, m = .engine n → ¬s.fault.holds n) : NamesStay s (s.send m) where
  ready := rfl
  fault := rfl
  entry := fun _ _ => id
  engine := fun n hn hs => by
    simp only [State.send_fault, List.mem_append, List.mem_singleton, not_or]
    exact ⟨hs, fun e => h n e.symm hn⟩
  sent := fun h => absurd (hr.symm.trans h) (by simp)
  loads := fun _ => id

/-- The messages of an erase completion concern an entry that no slot names any more (R142). -/
theorem State.announceClear_namesStay {s : State} {n : Fin 32} (hr : s.ready = true) (h : ¬s.fault.holds n) (k : Fin 4)
    (engine : Fin 3) (later : Bool) : NamesStay s (s.announceClear k n engine later) := by
  have h1 : NamesStay s (if engine = 0 then s.lockCleared n else s) := by
    split
    · exact State.lockCleared_namesStay h
    · exact .refl s
  unfold State.announceClear
  dsimp only
  generalize (if engine = 0 then s.lockCleared n else s) = s1 at *
  have h2 : NamesStay s1 (if later then s1.send (.store n) else s1.unpin n) := by
    split
    · exact State.send_namesStay (h1.ready.trans hr) fun _ e => by cases e
    · exact Aside.namesStay ⟨rfl, rfl, rfl⟩
  generalize (if later then s1.send (.store n) else s1.unpin n) = s2 at *
  have h3 : NamesStay s (s2.postLockCleared k n) := (h1.trans h2).trans (Aside.namesStay ⟨rfl, rfl, rfl⟩)
  refine h3.trans ?_
  generalize s2.postLockCleared k n = s3 at *
  have free := mt h3.holds.1 h
  split
  · exact State.lockCleared_namesStay free
  · split
    · refine State.send_namesStay (h3.ready.trans hr) fun m e => ?_
      cases e
      exact free
    · exact .refl s3

theorem State.announceClear_faultStays (s : State) (k : Fin 4) (n : Fin 32) (engine : Fin 3) (later : Bool) :
    FaultStays s (s.announceClear k n engine later) := by
  have h1 : FaultStays s (if engine = 0 then s.lockCleared n else s) := by
    split
    · exact s.lockCleared_faultStays n
    · exact .refl s
  unfold State.announceClear
  dsimp only
  generalize (if engine = 0 then s.lockCleared n else s) = s1 at *
  have h2 : FaultStays s1 ((if later then s1.send (.store n) else s1.unpin n).postLockCleared k n) := by
    split <;> exact ⟨rfl, rfl⟩
  generalize ((if later then s1.send (.store n) else s1.unpin n).postLockCleared k n) = s2 at *
  refine (h1.trans h2).trans ?_
  split
  · exact s2.lockCleared_faultStays n
  · split
    · exact ⟨rfl, rfl⟩
    · exact .refl s2

/-- Once an erase has emptied its slot, its messages and the end of its item leave the locks as they should be (R142). -/
theorem announced_locksKept {s u : State} {k : Fin 4} {h : LockHeader} {b : Option LockBody} (engine : Fin 3)
    (later : Bool) (hk : s.fault.erasingNow .unmark = some (k, .erase)) (hs : s.fault.slots[k] = .erasing h b)
    (hu : Aside (s.modFault fun f => (f.modMedium k fun d => { d with mark := .blank }).setSlot k (.empty false)) u) :
    LocksKept s ((u.announceClear k h.entry engine later).modFault FaultMemory.finishHead) := by
  obtain ⟨i, rest, hw, rfl, _, hp, _⟩ := FaultMemory.erasingNow_some hk
  have hfault : u.fault = { s.fault with
      medium := s.fault.medium.set i.slot { s.fault.medium[i.slot] with mark := .blank }
      slots := s.fault.slots.set i.slot (.empty false) } := hu.fault
  have hstay := u.announceClear_faultStays i.slot h.entry engine later
  have ready (hc : s.startingClean) : (u.announceClear i.slot h.entry engine later).ready = true :=
    (hstay.ready.trans hu.ready).trans (hc.ready_of_phase hp)
  refine ⟨fun hc hl => (State.locksAgree_ready (by exact ready hc)).2 ?_,
    fun hc hl hn => (State.slotsNameApart_ready (by exact ready hc)).2 ?_⟩
  all_goals
    have ha := (State.locksAgree_ready (hc.ready_of_phase hp)).1 hl
    have hblank := (ha.unmarked hk).2
  · have hf := hstay.fault
    rw [hfault, hblank] at hf
    change (FaultMemory.finishHead (u.announceClear i.slot h.entry engine later).fault).Agreeing
    rw [hf]
    refine ha.finish hw rfl (fun j hj => ?_) (.inr ?_)
    · simp only [getElem_set_fin, hj.symm, if_false, true_and]
    · simp only [getElem_set_fin, if_true, true_and]
  · have hna := (State.slotsNameApart_ready (hc.ready_of_phase hp)).1 hn
    have cleared := hna.clearSlot (g := { s.fault with
        medium := s.fault.medium.set i.slot { s.fault.medium[i.slot] with mark := .blank }
        slots := s.fault.slots.set i.slot (.empty false) }) i.slot rfl (by rw [hblank]) rfl
    have free : ¬u.fault.holds h.entry := by
      rintro ⟨j, hj⟩
      rw [hfault] at hj
      dsimp only at hj
      rw [getElem_set_fin] at hj
      split at hj
      · cases hj
      · rename_i hne
        exact hne (hna.unique i.slot j h.entry (by rw [hs]; rfl) hj)
    have hur : u.ready = true := hu.ready.trans (hc.ready_of_phase hp)
    have hun : u.slotsNameApart :=
      hu.namesStay.slotsNameApart ((State.slotsNameApart_ready (by exact hc.ready_of_phase hp)).2 cleared)
    have told := (State.announceClear_namesStay hur free i.slot engine later).slotsNameApart hun
    exact ((State.slotsNameApart_ready (ready hc)).1 told).finishHead

theorem eraseComplete_locksKept (s : State) : LocksKept s (eraseComplete s) := by
  unfold eraseComplete
  split
  · rename_i k hk
    split
    · rename_i h b hs
      exact announced_locksKept _ _ hk hs ⟨rfl, rfl, rfl⟩
    all_goals exact (Aside.refl s).locksKept
  all_goals exact (Aside.refl s).locksKept

/-! ### The restore (R148, R183) -/

/-- Before the part is ready, with the restore at slot `j` and nothing in flight (R148, R183). -/
structure State.Restoring (s : State) (j : Nat) : Prop where
  notReady : s.ready = false
  restore : s.fault.restore = some j
  idle : s.fault.phase = none
  off : ∀ n : Fin 32, s.entries[n].state = .off

theorem State.startingClean.restoring {s : State} (h : s.startingClean) {j : Nat} (hj : s.fault.restore = some j) :
    s.Restoring j := by
  obtain ⟨_, h2, h3⟩ := h
  have hr : s.ready = false := h2 (by simp [hj])
  obtain ⟨_, _, _, hp, ho, _⟩ := h3 hr
  exact ⟨hr, hj, hp, ho⟩

/-- What settling a slot does to Fault Memory: its view is what the restore makes of its medium, and a slot to be cleaned up
joins the work list (R148). -/
def FaultMemory.settle (f : FaultMemory) (k : Fin 4) : FaultMemory :=
  { f with
    slots := f.slots.set k f.medium[k].restored
    restore := some (k.val + 1)
    work := if f.medium[k].restored = .empty true then f.work ++ [{ kind := .cleanup, slot := k }] else f.work }

/-- A slot settled: Fault Memory as `settle` says, and else only switches and the queue move (R148). -/
theorem State.settleSlot_aside (s : State) (k : Fin 4) : Aside { s with fault := s.fault.settle k } (s.settleSlot k) := by
  unfold State.settleSlot
  dsimp only
  split
  all_goals
    rename_i hv
    refine ⟨rfl, ?_, rfl⟩
    unfold FaultMemory.settle
    rw [hv]
    simp [FaultMemory.setSlot, State.post]

/-- What the restore makes of a medium with nothing on it, and of that alone (R148). -/
theorem SlotMedium.restored_blank {d : SlotMedium} (h : d.restored = .empty false) : d = SlotMedium.blank := by
  obtain ⟨header, body, mark⟩ := d
  cases mark <;> cases header <;> cases body <;> simp_all [SlotMedium.restored, SlotMedium.blank]

/-- The restore leaves a slot EMPTY or VALID (R148). -/
theorem SlotMedium.restored_cases (d : SlotMedium) :
    (∃ c, d.restored = .empty c) ∨ ∃ h b, d.restored = .valid h b := by
  unfold SlotMedium.restored
  split <;> simp

theorem State.settleSlot_restoring {s : State} {k : Fin 4} (h : s.Restoring k.val) :
    (s.settleSlot k).Restoring (k.val + 1) := by
  have ha := s.settleSlot_aside k
  refine ⟨ha.ready.trans h.notReady, ?_, ?_, fun n => ?_⟩
  · rw [ha.fault]
    rfl
  · rw [ha.fault]
    exact h.idle
  · rw [ha.entries]
    exact h.off n

/-- A slot that the restore settles agrees with its medium, and the slots settled before it still do (R148). -/
theorem State.settleSlot_agree {s : State} {k : Fin 4} (h : s.Restoring k.val) (hl : s.locksAgree) :
    (s.settleSlot k).locksAgree := by
  obtain ⟨hn, _, hw, ha⟩ := hl
  refine (s.settleSlot_aside k).namesStay.locksAgree ?_
  have hlt (i : WorkItem) (hi : i ∈ s.fault.work) : i.slot.val < k.val := by
    have := hw h.notReady i hi
    rwa [h.restore] at this
  have hnot : k ∉ s.fault.work.map WorkItem.slot := by
    intro hk
    obtain ⟨i, hi, e⟩ := List.mem_map.1 hk
    have := hlt i hi
    rw [e] at this
    exact Nat.lt_irrefl _ this
  refine ⟨?_, fun hr => absurd (h.notReady.symm.trans hr) (by simp), fun _ i hi => ?_, fun j hj => ?_⟩
  · simp only [FaultMemory.settle]
    split
    · rw [List.map_append, List.nodup_append]
      refine ⟨hn, by simp, fun x hx y hy e => hnot ?_⟩
      simp only [List.map_cons, List.map_nil, List.mem_singleton] at hy
      rwa [← hy, ← e]
    · exact hn
  · simp only [FaultMemory.settle, Option.getD_some] at hi ⊢
    split at hi
    · rcases List.mem_append.1 hi with hi | hi
      · exact Nat.lt_succ_of_lt (hlt i hi)
      · rw [List.mem_singleton.1 hi]
        exact Nat.lt_succ_self _
    · exact Nat.lt_succ_of_lt (hlt i hi)
  · have hidle (i : Fin 4) : (s.fault.settle k).phaseOf i = none :=
      phaseOf_idle (f := s.fault.settle k) h.idle i
    by_cases hjk : j = k
    · subst hjk
      have hs : (s.fault.settle j).slots[j] = s.fault.medium[j].restored := by
        simp only [FaultMemory.settle, getElem_set_fin, if_true]
      have hitem : (s.fault.settle j).itemKind j =
          if s.fault.medium[j].restored = .empty true then some .cleanup else none := by
        have hfree := itemKind_eq_none.2 hnot
        split
        · rename_i hv
          have := itemKind_append_self (f := s.fault) (i := { kind := .cleanup, slot := j }) hfree
          simpa only [FaultMemory.settle, FaultMemory.itemKind, hv, if_true] using this
        · rename_i hv
          simpa only [FaultMemory.settle, FaultMemory.itemKind, hv, if_false] using hfree
      rcases s.fault.medium[j].restored_cases with ⟨c, hc⟩ | ⟨x, b, hb⟩
      · cases c
        · exact (slotAgrees_blank (hs.trans hc)).2 ⟨hitem.trans (if_neg (by rw [hc]; simp)), SlotMedium.restored_blank hc⟩
        · refine (slotAgrees_cleanup (hs.trans hc)).2 ⟨hitem.trans (if_pos hc), ?_⟩
          rw [hidle]
          trivial
      · exact (slotAgrees_valid (hs.trans hb)).2 ⟨hitem.trans (if_neg (by rw [hb]; simp)), hb⟩
    · have hj' : j.val < k.val := by
        have : j.val < k.val + 1 :=
          hj.resolve_left fun hr => absurd (h.notReady.symm.trans hr) (by simp)
        have : j.val ≠ k.val := fun e => hjk (Fin.ext e)
        omega
      refine FaultMemory.slotAgrees_congr (f := s.fault) ?_ ?_ rfl ((hidle j).trans (phaseOf_idle h.idle j).symm)
        (ha j (.inr (by rw [h.restore]; exact hj')))
      · simp only [FaultMemory.settle, getElem_set_fin, Ne.symm hjk, if_false]
      · simp only [FaultMemory.settle]
        split
        · exact itemKind_append (f := s.fault) (i := { kind := .cleanup, slot := k }) (Ne.symm hjk)
        · rfl

/-- A settled slot names what its medium does (R148). -/
theorem State.settleSlot_names {s : State} {k : Fin 4} (h : s.Restoring k.val) (hn : s.slotsNameApart) :
    (s.settleSlot k).slotsNameApart := by
  obtain ⟨_, h2, h3, _, h5⟩ := hn
  obtain ⟨hsent, hloads, hstored⟩ := h5 h.notReady
  refine (s.settleSlot_aside k).namesStay.slotsNameApart ?_
  have names (j : Fin 4) : (s.fault.settle k).slots[j].names =
      if k = j then s.fault.medium[j].restored.names else s.fault.slots[j].names := by
    simp only [FaultMemory.settle, getElem_set_fin]
    split
    · rename_i e
      rw [e]
    · rfl
  have stored (j : Fin 4) (n : Fin 32) (hj : (s.fault.settle k).slots[j].names = some n) :
      s.fault.medium[j].restored.names = some n := by
    rw [names] at hj
    split at hj
    · exact hj
    · exact hstored j n hj
  refine ⟨fun j l n hj hl => h2 j l n (stored j n hj) (stored l n hl), h2, fun j n hj hd => ?_, fun j n _ => ?_,
    fun _ => ⟨hsent, hloads, stored⟩⟩
  · show (s.fault.settle k).slots[j].names = some n
    rw [names]
    split
    · exact hd
    · rename_i hne
      refine h3 j n (.inr ?_) hd
      have hlt : j.val < k.val + 1 :=
        hj.resolve_left fun hr => absurd (h.notReady.symm.trans hr) (by simp)
      rw [h.restore]
      have : k.val ≠ j.val := fun e => hne (Fin.ext e)
      simp only [Option.getD_some]
      omega
  · refine ⟨.inr ⟨h.off n, fun c hc => ?_⟩, ?_⟩
    · rw [show s.entries[n].pendingLoad = none from hloads n] at hc
      cases hc
    · show ClearMessage.engine n ∉ s.fault.sent
      simp [hsent]

/-- The slots from `j` on are settled one after the other (R148). -/
theorem State.settleFrom_eq (s : State) (j : Nat) :
    s.settleFrom j = if h : j < 4 then (s.settleSlot ⟨j, h⟩).settleFrom (j + 1) else s := by
  match j with
  | 0 | 1 | 2 | 3 => rfl
  | n + 4 =>
    have : ((List.finRange 4).filter fun k => decide (n + 4 ≤ k.val)) = [] := by
      refine List.filter_eq_nil_iff.2 fun k _ => ?_
      have := k.isLt
      simp only [decide_eq_true_eq]
      omega
    unfold State.settleFrom
    rw [this, dif_neg (by omega)]
    rfl

/-- A restore that goes to its end keeps what each of its steps keeps (R148). -/
theorem State.settleFrom_keeps {P : State → Prop} (hP : ∀ (s : State) (k : Fin 4), s.Restoring k.val → P s → P (s.settleSlot k))
    {s : State} {j : Nat} (h : s.Restoring j) (hs : P s) :
    ∃ i, 4 ≤ i ∧ (s.settleFrom j).Restoring i ∧ P (s.settleFrom j) := by
  by_cases hj : j < 4
  · rw [s.settleFrom_eq, dif_pos hj]
    exact State.settleFrom_keeps hP (State.settleSlot_restoring (k := ⟨j, hj⟩) h) (hP s ⟨j, hj⟩ h hs)
  · rw [s.settleFrom_eq, dif_neg hj]
    exact ⟨j, by omega, h, hs⟩
termination_by 4 - j

theorem restoreSlotSettled_locksKept (s : State) : LocksKept s (restoreSlotSettled s) := by
  unfold restoreSlotSettled
  split
  · exact (Aside.refl s).locksKept
  · rename_i j hj
    split
    · rename_i h
      exact ⟨fun hc hl => State.settleSlot_agree (k := ⟨j, h⟩) (hc.restoring hj) hl,
        fun hc _ hn => State.settleSlot_names (k := ⟨j, h⟩) (hc.restoring hj) hn⟩
    · exact (Aside.refl s).locksKept

theorem FaultMemory.repairSerial_eq (f : FaultMemory) : ∃ w, f.repairSerial = { f with serialWord := w } := by
  unfold FaultMemory.repairSerial
  split <;> exact ⟨_, rfl⟩

/-- The last act of the restore: with every slot settled the part is ready and the first cleanup erase starts (R183). -/
theorem State.restored_locks {s u : State} {i : Nat} (h : s.Restoring i) (hi : 4 ≤ i) (w : SerialWord) (hr : u.ready = true)
    (hf : u.fault = ({ s.fault with serialWord := w, restore := none } : FaultMemory).startHead)
    (he : u.entries = s.entries) :
    (s.locksAgree → u.locksAgree) ∧ (s.slotsNameApart → u.slotsNameApart) := by
  have settled (k : Fin 4) : k.val < s.fault.restore.getD 0 := by
    rw [h.restore]
    exact Nat.lt_of_lt_of_le k.isLt hi
  constructor
  · rintro ⟨hn, _, _, ha⟩
    refine (State.locksAgree_ready hr).2 ?_
    rw [hf]
    exact FaultMemory.startHead_agreeing hn h.idle fun k => ha k (.inr (settled k))
  · rintro ⟨h1, h2, h3, h4, _⟩
    refine (State.slotsNameApart_ready hr).2 ?_
    obtain ⟨v, p, e, hv⟩ := FaultMemory.startHead_names { s.fault with serialWord := w, restore := none }
    rw [e] at hf
    have names (k : Fin 4) : u.fault.slots[k].names = s.fault.slots[k].names := by
      rw [hf]
      exact hv k
    refine ⟨fun k l n hk hl => ?_, fun k n hk => ?_, fun n ⟨k, hk⟩ => ?_⟩
    · rw [names] at hk hl
      exact h1 k l n hk hl
    · rw [names]
      rw [hf] at hk
      exact h3 k n (.inr (settled k)) hk
    · rw [names] at hk
      rw [hf, he]
      exact h4 k n hk

/-- What the completion of a restore leaves of Fault Memory and the entries (R183). -/
theorem restoreComplete_fault {s : State} {j : Nat} (h : s.fault.restore = some j) :
    ∃ w, (restoreComplete s).ready = true ∧ (restoreComplete s).entries = (s.settleFrom j).entries ∧
      (restoreComplete s).fault =
        ({ (s.settleFrom j).fault with serialWord := w, restore := none } : FaultMemory).startHead := by
  obtain ⟨w, hw⟩ := FaultMemory.repairSerial_eq (s.settleFrom j).fault
  unfold restoreComplete
  rw [h]
  refine ⟨w, rfl, rfl, ?_⟩
  change FaultMemory.startHead { (s.settleFrom j).fault.repairSerial with restore := none } = _
  rw [hw]

theorem restoreComplete_locksKept (s : State) : LocksKept s (restoreComplete s) := by
  cases hj : s.fault.restore with
  | none =>
    have : restoreComplete s = s := by
      unfold restoreComplete
      rw [hj]
    rw [this]
    exact (Aside.refl s).locksKept
  | some j =>
    obtain ⟨w, hr, he, hf⟩ := restoreComplete_fault hj
    refine ⟨fun hc hl => ?_, fun hc _ hn => ?_⟩
    · obtain ⟨i, hi, hrest, hl⟩ := State.settleFrom_keeps (fun _ _ => State.settleSlot_agree) (hc.restoring hj) hl
      exact (State.restored_locks hrest hi w hr hf he).1 hl
    · obtain ⟨i, hi, hrest, hn⟩ := State.settleFrom_keeps (fun _ _ => State.settleSlot_names) (hc.restoring hj) hn
      exact (State.restored_locks hrest hi w hr hf he).2 hn

/-! ### Resets (R147, R182) -/

/-- An interrupted write leaves no header on the medium that names an entry it did not name before (R147). -/
theorem SlotMedium.interrupted_names {d : SlotMedium} {p : OpPhase} {outcome : Nat} {n : Fin 32}
    (h : (d.interrupted p outcome).restored.names = some n) : d.restored.names = some n := by
  rw [SlotMedium.restored_names_iff] at h ⊢
  obtain ⟨hm, x, hx, hn⟩ := h
  cases p with
  | serial | body => exact ⟨hm, x, hx, hn⟩
  | header => cases hx
  | unmark => cases hm
  | mark =>
    simp only [SlotMedium.interrupted] at hm hx
    split at hm
    · cases hm
    · rename_i ho
      rw [if_neg ho] at hx
      exact ⟨hm, x, hx, hn⟩
  | clear =>
    simp only [SlotMedium.interrupted] at hx
    cases hd : d.header with
    | blank => simp [hd, Area.cleared] at hx
    | partly | whole f =>
      simp only [hd, Area.cleared] at hx
      split at hx <;> cases hx

/-- A reset touches the medium of the slot whose item is in flight, and of no other (R147). -/
theorem FaultMemory.interruptedMedium_slot (f : FaultMemory) (outcome : Nat) (k : Fin 4) :
    (f.interruptedMedium outcome)[k] =
      match f.phaseOf k with
      | none => f.medium[k]
      | some p => f.medium[k].interrupted p outcome := by
  unfold FaultMemory.interruptedMedium FaultMemory.phaseOf
  split
  · rename_i hw
    simp [hw]
  · rename_i hw hp
    simp [hw, hp]
  · rename_i i rest p hw hp
    rw [getElem_set_fin]
    by_cases hk : i.slot = k
    · subst hk
      simp [hw, hp]
    · simp [hw, hk]

theorem assertReset_locksKept (s : State) : LocksKept s s.assertReset := by
  have slots (k : Fin 4) : s.assertReset.fault.slots[k] = .empty false := by
    change (Vector.replicate 4 (SlotView.empty false))[k] = _
    simp
  have named {k : Fin 4} {n : Fin 32} (h : s.assertReset.fault.slots[k].names = some n) : False := by
    rw [slots] at h
    cases h
  constructor
  · intro _ _
    refine ⟨List.nodup_nil, fun h => (by cases h), fun _ i hi => (by cases hi), fun k hk => ?_⟩
    rcases hk with hk | hk
    · cases hk
    · exact absurd hk (Nat.not_lt_zero _)
  · rintro _ _ ⟨_, h2, _, _, _⟩
    have stored {k : Fin 4} {n : Fin 32} (h : s.assertReset.fault.medium[k].restored.names = some n) :
        s.fault.medium[k].restored.names = some n := by
      change (s.fault.interruptedMedium _)[k].restored.names = some n at h
      rw [FaultMemory.interruptedMedium_slot] at h
      split at h
      · exact h
      · exact SlotMedium.interrupted_names h
    refine ⟨fun k l n hk _ => (named hk).elim, fun k l n hk hl => h2 k l n (stored hk) (stored hl), fun k n hk _ => ?_,
      fun k n hk => (named hk).elim, fun _ => ⟨rfl, fun n => ?_, fun k n hk => (named hk).elim⟩⟩
    · rcases hk with hk | hk
      · cases hk
      · exact absurd hk (Nat.not_lt_zero _)
    · change (Vector.replicate 32 Entry.default)[n].pendingLoad = none
      simp [Entry.default]

theorem resetEnd_locksKept (addr1 addr0 tripLow : Bool) (s : State) : LocksKept s (resetEnd addr1 addr0 tripLow s) := by
  unfold resetEnd
  split
  · rename_i hreset
    have start (hc : s.startingClean) : s.ready = false ∧ s.fault.restore = none := hc.1 hreset
    constructor
    · rintro hc ⟨h1, h2, h3, h4⟩
      obtain ⟨_, hr⟩ := start hc
      rw [hr] at h3 h4
      exact ⟨h1, h2, h3, h4⟩
    · rintro hc _ ⟨h1, h2, h3, h4, h5⟩
      obtain ⟨_, hr⟩ := start hc
      rw [hr] at h3
      exact ⟨h1, h2, h3, h4, h5⟩
  · exact (Aside.refl s).locksKept

/-! ### SOFT RESET and the time base -/

/-- SOFT RESET drops the messages on their way, and gives every entry its defaults (R186). -/
theorem State.softReset_fault (s : State) : s.softReset.ready = s.ready ∧
    s.softReset.fault = { s.fault with sent := [] } ∧ s.softReset.entries = Vector.replicate 32 Entry.default := by
  have holders : Aside s ((List.finRange 32).foldl State.dropHolder s) := by
    refine .foldl (fun t n => ?_) _ _
    unfold State.dropHolder
    split <;> exact ⟨rfl, rfl, rfl⟩
  unfold State.softReset
  generalize (List.finRange 32).foldl State.dropHolder s = s1 at holders
  dsimp only
  generalize ht : ({ ({ s1 with entries := Vector.replicate 32 Entry.default } : State).modScan ScanUnit.softReset with
    records := _ } : State) = s3
  have cleared : s3.ready = s.ready ∧ s3.fault = s.fault ∧ s3.entries = Vector.replicate 32 Entry.default := by
    subst ht
    exact ⟨holders.ready, holders.fault, rfl⟩
  have indicators := Aside.foldl (f := fun t i => t.setIndicator i false)
    (fun t i => (t.setIndicator_switching i false).aside) (List.finRange 8) s3
  generalize (List.finRange 8).foldl (fun t i => t.setIndicator i false) s3 = s4 at *
  refine ⟨indicators.ready.trans cleared.1, ?_, indicators.entries.trans cleared.2.2⟩
  rw [← cleared.2.1, ← indicators.fault]
  rfl

theorem State.softReset_namesStay (s : State) : NamesStay s s.softReset := by
  obtain ⟨hr, hf, he⟩ := s.softReset_fault
  have entry (n : Fin 32) : s.softReset.entries[n] = Entry.default := by
    rw [he]
    simp
  refine ⟨⟨hr, by rw [hf]⟩, fun n _ _ => ?_, fun n _ _ => ?_, fun _ _ => by rw [hf], fun _ _ n => ?_⟩
  · rw [entry]
    exact .inr ⟨rfl, fun _ h => by cases h⟩
  · rw [hf]
    simp
  · rw [entry]
    rfl

theorem State.tick_namesStay (s : State) : NamesStay s s.tick := by
  have entry (n : Fin 32) : s.tick.entries[n] = s.entries[n].tick := by
    change (s.entries.map Entry.tick)[n] = _
    simp
  refine ⟨⟨rfl, rfl⟩, fun n _ h => ?_, fun _ _ => id, fun _ => id, fun _ h n => ?_⟩
  · rw [entry]
    exact h
  · rw [entry]
    exact h n

theorem timeBaseTick_locksKept (s : State) : LocksKept s (timeBaseTick s) := by
  have later : NamesStay s.receiveAll s.receiveAll.takeFailures.tick :=
    (State.takeFailures_switching _).aside.namesStay.trans (State.tick_namesStay _)
  exact ⟨fun _ hl => later.locksAgree ((State.receiveWhere_faultStays _ s).locksAgree hl),
    fun _ _ hn => later.slotsNameApart ((State.receiveWhere_namesStay _ hn).slotsNameApart hn)⟩

/-! ### Commands that reach entries or slots -/

theorem loadEntryBody_locksKept (s : State) : LocksKept s (loadEntryBody s).state := by
  unfold loadEntryBody
  split
  · exact (Aside.refl s).locksKept
  rename_i hr
  have hr : s.ready = true := by simpa using hr
  split
  · exact (Aside.refl s).locksKept
  rename_i n _
  split
  · exact (Aside.refl s).locksKept
  rename_i hlock
  split
  · exact (Aside.refl s).locksKept
  split
  · exact (Aside.refl s).locksKept
  split
  · exact (Aside.refl s).locksKept
  split
  · exact (Aside.refl s).locksKept
  rename_i hcheck
  have locks (hn : s.fault.holds n) : s.entryStaging.isEnabled = true ∧ s.entryStaging.isLock = true := by
    have := (s.fault.slotNaming_isSome n).2 hn
    simpa [this] using hcheck
  split
  · exact (State.applyLoad_namesStay fun hn _ _ => (locks hn).2).locksKept
  · refine NamesStay.locksKept (.entryOnly n { s.entries[n] with pendingLoad := some s.entryStaging } rfl rfl rfl
      (fun hn hm => ?_) fun h => absurd (hr.symm.trans h) (by simp))
    rcases hm with hm | ⟨hm, _⟩
    · exact .inl hm
    · refine .inr ⟨hm, fun c hc _ => ?_⟩
      cases hc
      exact (locks hn).2

theorem releaseBody_locksKept (s : State) : LocksKept s (releaseBody s).state := by
  unfold releaseBody
  split
  · exact (Aside.refl s).locksKept
  split
  · exact (Aside.refl s).locksKept
  split
  case h_7 hs =>
    exact (State.recover_namesStay (fun _ => Entry.not_mayBeHeld (by rw [hs]; simp) (by rw [hs]; simp)) _).locksKept
  all_goals exact (Aside.refl s).locksKept

/-- The immediate clear of a volatile lock: the entry is one that no slot names (R47). -/
theorem State.clearVolatile_namesStay {s : State} {n : Fin 32} (h : ¬s.fault.holds n) :
    NamesStay s (s.clearVolatile n) := by
  refine .entryOnly n (s.entries[n].rest .idle) ?_ ?_ ?_ (fun hn => absurd hn h) fun _ => id
  all_goals
    unfold State.clearVolatile State.letGo
    dsimp only
    split <;> rfl

theorem FaultMemory.queueErase_names {f : FaultMemory} {k : Fin 4} {h : LockHeader} {b : Option LockBody}
    (hs : f.slots[k] = .valid h b) : ∃ v w p, f.queueErase k = { f with slots := v, work := w, phase := p } ∧
      ∀ j : Fin 4, v[j].names = f.slots[j].names := by
  have names (j : Fin 4) : (f.slots.set k (.erasing h b))[j].names = f.slots[j].names := by
    rw [getElem_set_fin]
    split
    · rename_i e
      rw [← e, hs]
      rfl
    · rfl
  unfold FaultMemory.queueErase
  rw [hs]
  dsimp only
  unfold FaultMemory.enqueue
  dsimp only
  split
  · obtain ⟨v, p, e, hv⟩ := FaultMemory.startHead_names { f with
      slots := f.slots.set k (.erasing h b), work := f.work ++ [{ kind := .erase, slot := k }] }
    exact ⟨v, _, p, e, fun j => (hv j).trans (names j)⟩
  · exact ⟨_, _, _, rfl, names⟩

theorem clearLockBody_locksKept (service : Bool) (s : State) : LocksKept s (clearLockBody service s).state := by
  unfold clearLockBody
  split
  · exact (Aside.refl s).locksKept
  rename_i hr
  have hr : s.ready = true := by simpa using hr
  split
  · exact (Aside.refl s).locksKept
  rename_i n _
  split
  · exact (Aside.refl s).locksKept
  split
  · rename_i k _
    split
    · rename_i h b hs
      refine .ofFault (g := s.fault.queueErase k) (.refl _) (fun _ => hr) (fun ha => ha.queueErase k) fun _ hn => ?_
      obtain ⟨v, w, p, e, hv⟩ := FaultMemory.queueErase_names hs
      rw [e]
      refine hn.moveFault (fun j n hj => ?_) (fun j n hj => ?_) rfl
      · rw [← hv]
        exact hj
      · rw [hv]
        exact hn.stored j n hj
    all_goals exact (Aside.refl s).locksKept
  · rename_i hnone
    have free : ¬s.fault.holds n := fun h => by
      have := (s.fault.slotNaming_isSome n).2 h
      simp [hnone] at this
    split
    · exact (State.clearVolatile_namesStay free).locksKept
    · exact (Aside.refl s).locksKept

theorem softResetBody_locksKept (s : State) : LocksKept s (softResetBody s).state := by
  unfold softResetBody
  split
  · exact (Aside.refl s).locksKept
  split
  case h_5 => exact s.softReset_namesStay.locksKept
  all_goals exact (Aside.refl s).locksKept

/-! ### Qualifications at a dwell expiry and at the end of a step -/

/-- Once the engine has taken the messages on their way to it, none is left (log 4). -/
theorem State.receiveEngine_apart {s : State} (hr : s.ready = true) (hn : s.slotsNameApart) : s.receiveEngine.Apart := by
  have hstay := State.receiveWhere_namesStay ClearMessage.toEngine hn
  refine ⟨hstay.ready.trans hr, hstay.slotsNameApart hn, fun n => ?_⟩
  have sent (l : List ClearMessage) (t : State) : (l.foldl State.receive t).fault.sent = t.fault.sent := by
    induction l generalizing t with
    | nil => rfl
    | cons m l ih =>
      rw [List.foldl_cons, ih]
      cases m with
      | store _ => rfl
      | engine k =>
        change (t.lockCleared k).fault.sent = _
        unfold State.lockCleared
        split
        · rw [t.recover_eq]
          rfl
        · rfl
  unfold State.receiveEngine State.receiveWhere
  rw [sent]
  simp [ClearMessage.toEngine]

/-- A part that is not ready takes no dwell expiry, since every entry is OFF (R182). -/
theorem dwellExpiry_locksKept (n : Fin 32) (s : State) : LocksKept s (dwellExpiry n s) := by
  have ready (hc : s.startingClean) (hp : s.entries[n].state = .pending) : s.ready = true := by
    obtain ⟨_, _, h3⟩ := hc
    by_contra hr
    have := (h3 (by simpa using hr)).2.2.2.2.1 n
    rw [hp] at this
    cases this
  have keeps := dwellExpiry_keeps s n
  unfold dwellExpiry at keeps ⊢
  split
  · rename_i d hd
    split
    · rename_i h
      rw [hd] at keeps
      dsimp only at keeps
      rw [if_pos h] at keeps
      refine ⟨fun hc hl => keeps.locks (ready hc h.1) hl, fun hc _ hn => ?_⟩
      have ha := State.receiveEngine_apart (ready hc h.1) hn
      refine (State.qualify_apart d ha (.inr ?_)).names
      rw [State.receiveEngine, State.receiveWhere_pending _ h.1]
      exact h.1
    · exact (Aside.refl s).locksKept
  · exact (Aside.refl s).locksKept

/-- A part that is not ready is in no step, since its Scan Unit is IDLE (R182). -/
theorem scanStepComplete_locksKept (s : State) : LocksKept s (scanStepComplete s) := by
  have ready (hc : s.startingClean) (hp : s.scan.scanning = true) : s.ready = true := by
    obtain ⟨_, _, h3⟩ := hc
    by_contra hr
    have := (h3 (by simpa using hr)).2.2.1
    rw [hp] at this
    cases this
  have agree (h : s.scan.scanning = true) (hc : s.startingClean) (hl : s.locksAgree) : (scanStepComplete s).locksAgree :=
    (scanStepComplete_keeps s).locks (ready hc h) hl
  cases hx : s.scan.sampled with
  | none =>
    have : scanStepComplete s = s := by
      unfold scanStepComplete
      rw [hx]
    rw [this]
    exact (Aside.refl s).locksKept
  | some x =>
    by_cases h : s.scan.scanning = true
    · refine ⟨agree h, fun hc _ hn => ?_⟩
      have ha := State.handOver_apart x (State.receiveEngine_apart (ready hc h) hn)
      unfold scanStepComplete
      rw [hx]
      dsimp only
      rw [if_pos h]
      split
      · exact Aside.namesStay ⟨rfl, rfl, rfl⟩ |>.slotsNameApart ha.names
      · exact State.frameEnd_names ha
    · have : scanStepComplete s = s := by
        unfold scanStepComplete
        rw [hx]
        exact if_neg h
      rw [this]
      exact (Aside.refl s).locksKept

/-! ### Steps that only reach other blocks -/

theorem loadScanListBody_aside (s : State) : Aside s (loadScanListBody s).state := by
  unfold loadScanListBody
  repeat' split
  all_goals first
    | exact s.applyList_aside _
    | exact ⟨rfl, rfl, rfl⟩

theorem loadChannelBody_aside (s : State) : Aside s (loadChannelBody s).state := by
  unfold loadChannelBody
  repeat' split
  all_goals first
    | exact s.applyChannel_aside _ _
    | exact ⟨rfl, rfl, rfl⟩

theorem loadSwitchBody_aside (s : State) : Aside s (loadSwitchBody s).state := by
  unfold loadSwitchBody
  repeat' split
  all_goals first
    | exact ⟨rfl, rfl, rfl⟩
    | exact (State.loadIndicator_aside _ _).of_start rfl rfl rfl

theorem powerUpBody_aside (s : State) : Aside s (powerUpBody s).state := by
  unfold powerUpBody
  repeat' split
  all_goals first
    | exact (s.beginUp_switching _).aside
    | exact ⟨rfl, rfl, rfl⟩

theorem powerDownBody_aside (s : State) : Aside s (powerDownBody s).state := by
  unfold powerDownBody
  repeat' split
  all_goals first
    | exact (s.powerDown_switching _).aside
    | exact ⟨rfl, rfl, rfl⟩

/-! ### Every step -/

theorem scanNowBody_locksKept (s : State) : LocksKept s (scanNowBody s).state := by
  unfold scanNowBody
  split
  · exact (Aside.refl s).locksKept
  · exact s.trigger_namesStay.locksKept

theorem writeScanMode_locksKept (v : Byte) (s : State) : LocksKept s (writeScanMode v s) := by
  unfold writeScanMode
  split
  · exact (Aside.refl s).locksKept
  · split
    · exact (Aside.refl s).locksKept
    · rename_i m _ _
      cases m with
      | timed | sync => exact Aside.locksKept ⟨rfl, rfl, rfl⟩
      | stopped =>
        have stopped : Aside s (s.modScan fun u =>
            { u with mode := .stopped, frameTimer := none, pendingTrigger := false }) := ⟨rfl, rfl, rfl⟩
        unfold State.setMode
        dsimp only
        split
        · exact stopped.locksKept
        · exact (stopped.namesStay.trans (State.becomeQuiet_namesStay _)).locksKept

theorem frameTimerExpiry_locksKept (s : State) : LocksKept s (frameTimerExpiry s) := by
  unfold frameTimerExpiry
  split
  · have reload : Aside s (s.modScan ScanUnit.reloadTimer) := ⟨rfl, rfl, rfl⟩
    exact (reload.namesStay.trans (State.trigger_namesStay _)).locksKept
  · exact (Aside.refl s).locksKept

theorem syncEdge_locksKept (s : State) : LocksKept s (syncEdge s) := by
  unfold syncEdge
  split
  · exact s.trigger_namesStay.locksKept
  · exact (Aside.refl s).locksKept

/-- A step in which every branch of the definition moves fields of other blocks alone. -/
theorem portStep_aside (s : State) :
    (∀ v, Aside s (pointerWrite v s)) ∧ (∀ v, Aside s (addressByte v s)) ∧
    (∀ service ack, Aside s (serveByte service ack s)) ∧ (∀ service ack, Aside s (fieldSnapshot service ack s)) ∧
    Aside s (transferTimeout s) := by
  have serve (service ack : Bool) : Aside s (serveByte service ack s) := by
    unfold serveByte
    dsimp only
    repeat' split
    all_goals exact ⟨rfl, rfl, rfl⟩
  refine ⟨fun v => ?_, fun v => ?_, serve, fun service ack => ?_, ?_⟩
  · unfold pointerWrite
    split <;> exact ⟨rfl, rfl, rfl⟩
  · unfold addressByte
    split <;> exact ⟨rfl, rfl, rfl⟩
  · unfold fieldSnapshot
    split
    · exact serve service ack
    · exact .refl s
  · unfold transferTimeout
    split <;> exact ⟨rfl, rfl, rfl⟩

theorem registerWrite_aside (v : Byte) (s : State) : Aside s (registerWrite v s) := by
  unfold registerWrite
  split
  · exact (s.writeRegister_aside _ _).trans ⟨rfl, rfl, rfl⟩
  · exact .refl s

/-- Every step of the table keeps the stored locks (R139 to R149). -/
theorem exec_locksKept (c : Instr) (s : State) : ∃ t, exec c s = .next t ∧ LocksKept s t := by
  have idle : LocksKept s s := (Aside.refl s).locksKept
  obtain ⟨hpointer, haddress, hserve, hfield, htimeout⟩ := portStep_aside s
  cases c with
  | scanNow => exact ⟨_, rfl, takeCommand_locksKept (scanNowBody_locksKept s)⟩
  | loadScanList => exact ⟨_, rfl, takeCommand_locksKept (loadScanListBody_aside s).locksKept⟩
  | loadChannel => exact ⟨_, rfl, takeCommand_locksKept (loadChannelBody_aside s).locksKept⟩
  | clearMinmax =>
    refine ⟨_, rfl, takeCommand_locksKept (Aside.locksKept ?_)⟩
    unfold clearMinmaxBody
    repeat' split
    all_goals exact ⟨rfl, rfl, rfl⟩
  | loadEntry => exact ⟨_, rfl, takeCommand_locksKept (loadEntryBody_locksKept s)⟩
  | release => exact ⟨_, rfl, takeCommand_locksKept (releaseBody_locksKept s)⟩
  | loadSwitch => exact ⟨_, rfl, takeCommand_locksKept (loadSwitchBody_aside s).locksKept⟩
  | restartSwitch =>
    refine ⟨_, rfl, takeCommand_locksKept (Aside.locksKept ?_)⟩
    unfold restartSwitchBody
    repeat' split
    all_goals exact ⟨rfl, rfl, rfl⟩
  | loadSequence =>
    refine ⟨_, rfl, takeCommand_locksKept (Aside.locksKept ?_)⟩
    unfold loadSequenceBody
    repeat' split
    all_goals exact ⟨rfl, rfl, rfl⟩
  | powerUp => exact ⟨_, rfl, takeCommand_locksKept (powerUpBody_aside s).locksKept⟩
  | powerDown => exact ⟨_, rfl, takeCommand_locksKept (powerDownBody_aside s).locksKept⟩
  | dropCaptures =>
    refine ⟨_, rfl, takeCommand_locksKept (Aside.locksKept ?_)⟩
    unfold dropCapturesBody
    split <;> exact ⟨rfl, rfl, rfl⟩
  | clearLock service => exact ⟨_, rfl, takeCommand_locksKept (clearLockBody_locksKept service s)⟩
  | popEvent =>
    refine ⟨_, rfl, takeCommand_locksKept (Aside.locksKept ?_)⟩
    unfold popEventBody
    split <;> exact ⟨rfl, rfl, rfl⟩
  | clearLoss => exact ⟨_, rfl, takeCommand_locksKept (Aside.locksKept ⟨rfl, rfl, rfl⟩)⟩
  | softReset => exact ⟨_, rfl, takeCommand_locksKept (softResetBody_locksKept s)⟩
  | badCommand code =>
    refine ⟨_, rfl, ?_⟩
    split
    · exact idle
    · exact takeCommand_locksKept (Aside.locksKept ⟨rfl, rfl, rfl⟩)
  | alertLevelWrite v =>
    refine ⟨_, rfl, takeWrite_locksKept (Aside.locksKept ?_)⟩
    unfold writeAlertLevel
    split <;> exact ⟨rfl, rfl, rfl⟩
  | scanModeWrite v => exact ⟨_, rfl, takeWrite_locksKept (writeScanMode_locksKept v s)⟩
  | framePeriodLowWrite v =>
    refine ⟨_, rfl, takeWrite_locksKept (Aside.locksKept ?_)⟩
    unfold writePeriodLow
    split <;> exact ⟨rfl, rfl, rfl⟩
  | framePeriodHighWrite v =>
    refine ⟨_, rfl, takeWrite_locksKept (Aside.locksKept ?_)⟩
    unfold writePeriodHigh
    dsimp only
    repeat' split
    all_goals exact ⟨rfl, rfl, rfl⟩
  | registerWrite v => exact ⟨_, rfl, awake_locksKept (registerWrite_aside v s).locksKept⟩
  | pointerWrite v => exact ⟨_, rfl, awake_locksKept (hpointer v).locksKept⟩
  | addressByte v => exact ⟨_, rfl, awake_locksKept (haddress v).locksKept⟩
  | fieldSnapshot service ack => exact ⟨_, rfl, awake_locksKept (hfield service ack).locksKept⟩
  | transferEnd => exact ⟨_, rfl, awake_locksKept (Aside.locksKept ⟨rfl, rfl, rfl⟩)⟩
  | transferTimeout => exact ⟨_, rfl, awake_locksKept htimeout.locksKept⟩
  | powerOnReset => exact ⟨_, rfl, assertReset_locksKept s⟩
  | pinReset => exact ⟨_, rfl, assertReset_locksKept s⟩
  | resetEnd a b low => exact ⟨_, rfl, resetEnd_locksKept a b low s⟩
  | restoreSlotSettled => exact ⟨_, rfl, awake_locksKept (restoreSlotSettled_locksKept s)⟩
  | restoreComplete => exact ⟨_, rfl, awake_locksKept (restoreComplete_locksKept s)⟩
  | tripFilterAssert low => exact ⟨_, rfl, awake_locksKept (tripAssert_aside low s).locksKept⟩
  | tripFilterRelease => exact ⟨_, rfl, awake_locksKept (tripRelease_aside s).locksKept⟩
  | syncEdge => exact ⟨_, rfl, awake_locksKept (syncEdge_locksKept s)⟩
  | frameTimerExpiry => exact ⟨_, rfl, awake_locksKept (frameTimerExpiry_locksKept s)⟩
  | scanStepSample a b c =>
    refine ⟨_, rfl, awake_locksKept (Aside.locksKept ?_)⟩
    unfold scanStepSample
    split <;> exact ⟨rfl, rfl, rfl⟩
  | scanStepComplete => exact ⟨_, rfl, awake_locksKept (scanStepComplete_locksKept s)⟩
  | dwellExpiry n => exact ⟨_, rfl, awake_locksKept (dwellExpiry_locksKept n s)⟩
  | recoveryExpiry n => exact ⟨_, rfl, awake_locksKept (recoveryExpiry_namesStay n s).locksKept⟩
  | rampTimerExpiry i => exact ⟨_, rfl, awake_locksKept (rampExpiry_aside i s).locksKept⟩
  | stepLimitExpiry => exact ⟨_, rfl, awake_locksKept (stepLimitExpiry_switching s).aside.locksKept⟩
  | dischargeTimerExpiry => exact ⟨_, rfl, awake_locksKept (dischargeExpiry_switching s).aside.locksKept⟩
  | settleTimerExpiry => exact ⟨_, rfl, awake_locksKept (settleExpiry_switching s).aside.locksKept⟩
  | programPhaseEnd => exact ⟨_, rfl, awake_locksKept (programPhaseEnd_locksKept s)⟩
  | programComplete => exact ⟨_, rfl, awake_locksKept (programComplete_locksKept s)⟩
  | erasePhaseEnd => exact ⟨_, rfl, awake_locksKept (erasePhaseEnd_locksKept s)⟩
  | eraseComplete => exact ⟨_, rfl, awake_locksKept (eraseComplete_locksKept s)⟩
  | cleanupEraseComplete => exact ⟨_, rfl, awake_locksKept (cleanupComplete_locksKept s)⟩
  | dataByteServed service ack => exact ⟨_, rfl, awake_locksKept (hserve service ack).locksKept⟩
  | timeBaseTick => exact ⟨_, rfl, awake_locksKept (timeBaseTick_locksKept s)⟩

/-- A step is the execution of the command at the front, and idle on an empty queue. -/
theorem step_locksKept {s t : State} (h : step s = .next t) : LocksKept s t := by
  unfold step at h
  split at h
  · cases h
    exact (Aside.refl s).locksKept
  · rename_i c rest _
    obtain ⟨u, hu, hk⟩ := exec_locksKept c { s with pending := rest }
    cases hu.symm.trans h
    exact ⟨hk.agree, hk.apart⟩

/-! ### Resets lose no stored lock -/

/-- Only settled slots show anything but EMPTY, so whatever a slot shows agrees with its medium (R139, R148). -/
theorem State.locksAgree.slot {s : State} (hl : s.locksAgree) (hc : s.startingClean) {k : Fin 4}
    (hv : s.fault.slots[k] ≠ .empty false) : s.fault.slotAgrees k := by
  obtain ⟨_, _, _, ha⟩ := hl
  obtain ⟨_, _, h3⟩ := hc
  by_cases hr : s.ready = true
  · exact ha k (.inl hr)
  · refine ha k (.inr (Nat.lt_of_not_le fun hk => hv ?_))
    exact (h3 (by simpa using hr)).2.2.2.2.2 k hk

/-- What a reset leaves of a slot's medium (R147). -/
theorem State.assertReset_medium (s : State) (k : Fin 4) : ∃ outcome, s.assertReset.fault.medium[k] =
    match s.fault.phaseOf k with
    | none => s.fault.medium[k]
    | some p => s.fault.medium[k].interrupted p outcome :=
  ⟨_, s.fault.interruptedMedium_slot _ k⟩

/-- Settles O57: every step keeps the views in agreement with the medium and the names apart, by the lemmas on each step
above; and the interruption of a write leaves of a stored lock what the restore finds again. -/
theorem storedLocksSurvive : Obligations.StoredLocksSurvive := by
  refine ⟨fun s t hc hl h => (step_locksKept h).agree hc hl, fun s t hc hl hn h => (step_locksKept h).apart hc hl hn, ?_⟩
  intro s t c k hc hl hreset ht
  have ht : t = s.assertReset := by
    rcases hreset with rfl | rfl <;> cases ht <;> rfl
  subst ht
  obtain ⟨outcome, hm⟩ := s.assertReset_medium k
  have agrees := hl.slot hc (k := k)
  dsimp only
  rw [hm]
  refine ⟨fun h b hs => ?_, fun h b hs => ⟨fun hp => ?_, fun hp => ?_⟩, fun e m y b hs hp => ?_⟩
  all_goals have ha := agrees (by rw [hs]; simp)
  · obtain ⟨hi, hd⟩ := (slotAgrees_valid hs).1 ha
    rw [phaseOf_eq_none (itemKind_eq_none.1 hi)]
    exact hd
  · obtain ⟨_, _, hd⟩ := (slotAgrees_erasing hs).1 ha
    rw [hp]
    exact hd (.inl hp)
  · obtain ⟨_, _, hd⟩ := (slotAgrees_erasing hs).1 ha
    rw [hp]
    simp only [SlotMedium.interrupted]
    split
    · exact .inr rfl
    · exact .inl (hd (.inr hp))
  · have hd := FaultMemory.programmed_of_agrees hs hp ha
    simp only [programmedSoFar_body, Option.some.injEq] at hd
    obtain ⟨x, rfl, hd⟩ := hd
    rw [hp, hd]
    rfl

end Sys2Proof.Machine
end

section
/-! SUPPORT. Entry configurations: validation, the checks of LOAD ENTRY and a load applied (R12 to R17). -/

namespace Sys2Proof.Machine

/-! ### Validation (R13) -/

theorem numberBelow_isNone {n : Nat} {b : Byte} : (numberBelow n b).isNone = decide (n ≤ b.toNat) := by
  unfold numberBelow
  split <;> simp <;> omega

/-- The reference entry's check, for a number below 32: the entry itself, or an entry in OFF (R13). -/
theorem badReference_iff {b : Byte} {r : Fin 32} (h : b.toNat = r.val) (n : Fin 32) (off : Fin 32 → Bool) :
    (31 < b.toNat ∨ b.toNat = n.val ∨ ∃ x : Fin 32, b.toNat = x.val ∧ off x = true) ↔ r = n ∨ off r = true := by
  have high : ¬31 < r.val := by omega
  simp [h, high, ← Fin.ext_iff]

/-- A list of numbered tests names the numbers of those that fail. -/
theorem filterMap_failing_cons (f : Nat) (b : Bool) (l : List (Nat × Bool)) :
    ((f, b) :: l).filterMap (fun x => if x.2 then some x.1 else none) =
      (if b = true then [f] else []) ++ l.filterMap fun x => if x.2 then some x.1 else none := by
  cases b <;> simp

/-- Settles O26: each test of the model against the field's row of R13, in the order of the list. -/
theorem entryValidation : Obligations.EntryValidation := by
  intro c n off
  dsimp only
  refine ⟨fun h => ?_, fun h => ?_⟩
  · simp [EntryConfig.firstFailing, EntryConfig.isEnabled, h]
  · have enabled : c.isEnabled = true := by simpa [EntryConfig.isEnabled] using h
    simp only [EntryConfig.firstFailing, enabled, if_true, EntryConfig.failingFields, filterMap_failing_cons,
      Bool.or_eq_true, Bool.and_eq_true, Bool.not_eq_true', decide_eq_true_eq, decide_eq_false_iff_not,
      numberBelow_isNone, List.any_eq_true, Nat.succ_le_iff, beq_iff_eq, bne_iff_ne]
    by_cases hr : c.derateRef.toNat < 32
    · simp only [numberBelow_some (i := (⟨_, hr⟩ : Fin 32)) rfl, badReference_iff (r := ⟨_, hr⟩) rfl, Bool.or_eq_true,
        beq_iff_eq]
      simp [EntryConfig.isNote, EntryConfig.isLock, EntryConfig.isAbort, EntryConfig.companionBytes, or_assoc]
    · have hr : 31 < c.derateRef.toNat := by omega
      simp only [numberBelow_none (n := 32) hr, hr, true_or]
      simp [EntryConfig.isNote, EntryConfig.isLock, EntryConfig.isAbort, EntryConfig.companionBytes, or_assoc]

/-! ### Loads (R12 to R17) -/

theorem EntryConfig.isEnabled_iff (c : EntryConfig) : c.isEnabled = true ↔ c.enabled ≠ 0 := by
  simp [EntryConfig.isEnabled]

theorem EntryConfig.isLock_iff (c : EntryConfig) : c.isLock = true ↔ c.tier = 2 := by
  simp [EntryConfig.isLock]

/-- The state that an applied configuration gives its entry (R17 step 5). -/
theorem State.stateAfterLoad_eq (s : State) (n : Fin 32) (c : EntryConfig) : s.stateAfterLoad n c =
    if c.enabled = 0 then .off else if c.tier = 2 ∧ (s.fault.slotNaming n).isSome = true then .locked else .idle := by
  unfold State.stateAfterLoad
  by_cases h : c.enabled = 0
  · simp [EntryConfig.isEnabled, h]
  · simp [EntryConfig.isEnabled, EntryConfig.isLock]

/-- A load applied, as one update: the test for an empty mask spares a message and changes nothing (R17). -/
theorem State.applyLoad_eq (s : State) (n : Fin 32) (c : EntryConfig) : s.applyLoad n c =
    (if s.stateAfterLoad n c = .locked then
        (s.modEntry n fun _ => { Entry.default with config := c, state := .locked }).joinMask (.e n) c.mask
      else s.modEntry n fun _ => { Entry.default with config := c, state := s.stateAfterLoad n c }).post .loadDone
        (some n.val) 0 0 := by
  unfold State.applyLoad
  dsimp only
  by_cases hx : s.stateAfterLoad n c = .locked
  · rw [hx, if_pos rfl]
    by_cases hm : c.mask = 0
    · rw [if_neg fun h => h.2 hm, hm, State.joinMask_zero]
    · rw [if_pos ⟨rfl, hm⟩]
  · simp [hx]

/-- Settles O28: the three rows of R17 are the three states a load can give. -/
theorem entryLoadApplication : Obligations.EntryLoadApplication := by
  intro s n c
  dsimp only
  rw [← s.fault.slotNaming_isSome n]
  refine ⟨fun he => ?_, fun he hl => ?_, fun he ht hh => ?_⟩
  all_goals rw [s.applyLoad_eq, s.stateAfterLoad_eq]
  · rw [if_pos he, if_neg (by simp)]
    rfl
  · have : ¬(c.tier = 2 ∧ (s.fault.slotNaming n).isSome = true) := fun h => hl.elim (fun g => g h.1) fun g => g h.2
    rw [if_neg he, if_neg this, if_neg (by simp)]
    rfl
  · have : c.tier = 2 ∧ (s.fault.slotNaming n).isSome = true := ⟨ht, hh⟩
    rw [if_neg he, if_pos this, if_pos rfl]
    rfl

/-- The answer of a command's body that the port shows. -/
def Reply.answer (r : Reply) : State := r.state.answered r.code r.detail

theorem Reply.answer_ite (p : Prop) [Decidable p] (a b : Reply) :
    (if p then a else b).answer = if p then a.answer else b.answer := by
  split <;> rfl

/-- The checks of LOAD ENTRY for an entry, as its body takes them (R12, R14, R15). -/
theorem loadEntryBody_of {s : State} {n : Fin 32} (hr : s.ready = true) (hn : s.port.arg0.toNat = n.val) :
    (loadEntryBody s).answer =
      if s.entries[n].state = .locked then s.answered .entryLockHeld 0
      else if s.entries[n].state.active = true then s.answered .entryBusy 0
      else if s.entries[n].pendingLoad.isSome = true then s.answered .loadPending 0
      else match s.entryStaging.firstFailing n (fun r => s.entries[r].state == .off) with
        | some field => s.answered .badEntry (BitVec.ofNat 8 field)
        | none =>
          if ((s.fault.slotNaming n).isSome && !(s.entryStaging.isEnabled && s.entryStaging.isLock)) = true then
            s.answered .entryLockHeld 0
          else if s.scan.quiet = true then (s.applyLoad n s.entryStaging).answered .ok 0
          else (s.modEntry n fun e => { e with pendingLoad := some s.entryStaging }).answered .accepted 0 := by
  unfold loadEntryBody
  rw [numberBelow_some hn, if_neg (by simp [hr])]
  dsimp only
  simp only [Reply.answer_ite]
  cases s.entryStaging.firstFailing n fun r => s.entries[r].state == .off <;> simp only [Reply.answer_ite] <;> rfl

/-- Settles O27: the checks of LOAD ENTRY in their order, each branch answered by `takeCommand_taken`. -/
theorem entryLoadChecks : Obligations.EntryLoadChecks := by
  intro s hs hr
  have taken : exec .loadEntry s = .next (loadEntryBody s).answer :=
    congrArg Host.Outcome.next (takeCommand_taken hs loadEntryBody)
  refine ⟨fun h => ?_, fun n hn => ?_⟩
  · rw [taken]
    simp [loadEntryBody, hr, numberBelow_none h, State.refuse, Reply.answer]
  · dsimp only
    rw [taken, loadEntryBody_of hr hn]
    congr 1
    have hs : (s.fault.slotNaming n).isSome = true ↔ ∃ k : Fin 4, s.fault.slots[k].names = some n :=
      s.fault.slotNaming_isSome n
    have stored : ((s.fault.slotNaming n).isSome && !(s.entryStaging.isEnabled && s.entryStaging.isLock)) = true ↔
        (∃ k : Fin 4, s.fault.slots[k].names = some n) ∧ ¬(s.entryStaging.enabled ≠ 0 ∧ s.entryStaging.tier = 2) := by
      rw [Bool.and_eq_true, hs, Bool.not_eq_true', ← Bool.not_eq_true, Bool.and_eq_true, EntryConfig.isEnabled_iff,
        EntryConfig.isLock_iff]
    have pending : s.entries[n].pendingLoad.isSome = true ↔ s.entries[n].pendingLoad ≠ none := Option.isSome_iff_ne_none
    have busy : s.entries[n].state.active = true ∧ s.entries[n].state ≠ .locked ↔
        s.entries[n].state = .asserted ∨ s.entries[n].state = .recovering ∨ s.entries[n].state = .releasable := by
      cases s.entries[n].state <;> simp [EntryState.active]
    simp only [stored, pending, ScanUnit.quiet_iff, ← busy]
    by_cases hl : s.entries[n].state = .locked
    · have idle : ¬(s.entries[n].state.active = true ∧ s.entries[n].state ≠ .locked) := fun h => h.2 hl
      rw [if_pos hl, if_neg idle, if_pos hl]
    · by_cases ha : s.entries[n].state.active = true
      · rw [if_neg hl, if_pos ha, if_pos ⟨ha, hl⟩]
      · have idle : ¬(s.entries[n].state.active = true ∧ s.entries[n].state ≠ .locked) := fun h => ha h.1
        rw [if_neg hl, if_neg ha, if_neg idle, if_neg hl]
        rfl

end Sys2Proof.Machine
end

section
/-! SUPPORT. The state after reset, the frame of transfers and page writes, and a millisecond of the time base. -/

namespace Sys2Proof.Machine

/-! ### The state after reset -/

section reset

theorem reset_entry (n : Fin 32) : State.reset.entries[n] = Entry.default := by
  change (Vector.replicate 32 Entry.default)[n] = _
  simp

theorem reset_switch (i : Fin 8) : State.reset.switches[i] = Switch.default := by
  change (Vector.replicate 8 Switch.default)[i] = _
  simp

theorem reset_record (r : Fin 22) : State.reset.records[r] = MeasRecord.default := by
  change (Vector.replicate 22 MeasRecord.default)[r] = _
  simp

theorem reset_slot (k : Fin 4) : State.reset.fault.slots[k] = .empty false := by
  change (Vector.replicate 4 (SlotView.empty false))[k] = _
  simp

theorem reset_medium (k : Fin 4) : State.reset.fault.medium[k] = SlotMedium.blank := by
  change (Vector.replicate 4 SlotMedium.blank)[k] = _
  simp

end reset

theorem Entry.default_legal : Entry.default.legal := by
  simp [Entry.legal, Entry.default, EntryConfig.isEnabled, EntryConfig.default, EntryState.active]

theorem reset_startingClean : State.reset.startingClean := by
  refine ⟨fun h => (by cases h), fun _ => rfl, fun _ => ⟨rfl, rfl, rfl, rfl, fun n => ?_, fun k _ => reset_slot k⟩⟩
  rw [reset_entry]
  rfl

/-- No slot is settled yet, so none has to agree with its medium. -/
theorem reset_locksAgree : State.reset.locksAgree := by
  refine ⟨List.nodup_nil, fun h => (by cases h), fun _ i hi => (by cases hi), fun k hk => ?_⟩
  rcases hk with hk | hk
  · cases hk
  · exact absurd hk (Nat.not_lt_zero _)

theorem reset_slotsNameApart : State.reset.slotsNameApart := by
  have held (k : Fin 4) (n : Fin 32) : State.reset.fault.slots[k].names ≠ some n := by
    rw [reset_slot]
    simp [SlotView.names]
  have stored (k : Fin 4) (n : Fin 32) : State.reset.fault.medium[k].restored.names ≠ some n := by
    rw [reset_medium]
    simp [SlotMedium.restored_names_iff, SlotMedium.blank]
  refine ⟨fun k _ n h _ => absurd h (held k n), fun k _ n h _ => absurd h (stored k n),
    fun k n _ h => absurd h (stored k n), fun k n h => absurd h (held k n),
    fun _ => ⟨rfl, fun n => ?_, fun k n h => absurd h (held k n)⟩⟩
  rw [reset_entry]
  rfl

/-- Settles O3: each invariant of the reset state, from the default of the part it speaks of. -/
theorem resetStateMeetsTheInvariants : Obligations.ResetStateMeetsTheInvariants := by
  have hold (i : Fin 8) (h : Holder) : State.reset.switches[i].holds.has h = false := by
    rw [reset_switch]
    exact HoldSet.has_zero h
  refine ⟨fun i => ?_, fun i h => ?_, fun n => ?_, fun i n => ?_, fun i => ?_, fun i k => ?_, reset_startingClean,
    reset_locksAgree, reset_slotsNameApart, EventQueue.default_sound, ?_, ?_, ⟨fun i h => (by cases h), fun i h => ?_⟩, ?_, ?_⟩
  · rw [reset_switch]
    exact Switch.default_legal
  · rw [State.gate, reset_switch] at h
    cases h
  · rw [reset_entry]
    exact Entry.default_legal
  · rw [hold, reset_entry]
    rfl
  · rw [hold]
    rfl
  · rw [hold, reset_slot]
  · exact ⟨Nat.zero_le _, Nat.zero_le _, List.nodup_nil⟩
  · exact ⟨List.nodup_nil, List.nodup_nil, fun i h => (by cases h), fun i h => (by cases h), Iff.rfl⟩
  · rw [reset_switch] at h
    cases h
  · refine ⟨fun _ => rfl, ⟨fun h => (by cases h), fun h => (by cases h)⟩, by decide, fun _ => ⟨rfl, rfl, fun n => ?_⟩⟩
    rw [reset_entry]
    rfl
  · refine ⟨fun r h => ?_, fun ch _ => ?_⟩
    · rw [reset_record] at h
      cases h
    · rw [reset_record]
      rfl

/-! ### Transfers -/

/-- The passage moves the port alone, and of the port what a transfer moves. -/
def OnlyTransfer (s t : State) : Prop :=
  t = { s with
    port := { s.port with
      phase := t.port.phase, pointer := t.port.pointer, snapshot := t.port.snapshot
      served := t.port.served, acked := t.port.acked } }

theorem serveByte_transfer (service ack : Bool) (s : State) : OnlyTransfer s (serveByte service ack s) := by
  unfold serveByte
  dsimp only
  split
  · split
    · rfl
    · split <;> rfl
  · rfl

theorem fieldSnapshot_transfer (service ack : Bool) (s : State) : OnlyTransfer s (fieldSnapshot service ack s) := by
  unfold fieldSnapshot
  split
  · exact serveByte_transfer service ack s
  · rfl

theorem addressByte_transfer (v : Byte) (s : State) : OnlyTransfer s (addressByte v s) := by
  unfold addressByte
  split <;> rfl

theorem pointerWrite_transfer (v : Byte) (s : State) : OnlyTransfer s (pointerWrite v s) := by
  unfold pointerWrite
  split <;> rfl

theorem transferTimeout_transfer (s : State) : OnlyTransfer s (transferTimeout s) := by
  unfold transferTimeout
  split <;> rfl

/-- In reset no step of a transfer moves anything (R182). -/
theorem awake_transfer {f : State → State} {s : State} (h : OnlyTransfer s (f s)) : OnlyTransfer s (awake f s) := by
  unfold awake
  split
  · rfl
  · exact h

/-- The passage moves the port, the staging records and the written derived configurations alone. -/
def OnlyStaging (s t : State) : Prop :=
  t = { s with
    entryStaging := t.entryStaging
    switchStaging := t.switchStaging
    seq := { s.seq with staging := t.seq.staging }
    scan := { s.scan with staging := t.scan.staging, channelStaging := t.scan.channelStaging }
    derivedWritten := t.derivedWritten
    port := t.port }

theorem State.writePage_staging (s : State) (page part off : Nat) (b : Byte) :
    OnlyStaging s (s.writePage page part off b) := by
  unfold State.writePage
  repeat' split
  all_goals rfl

theorem State.writeRegister_staging (s : State) (a : Nat) (b : Byte) : OnlyStaging s (s.writeRegister a b) := by
  unfold State.writeRegister
  by_cases h : 0x40 ≤ a ∧ a < 0x80
  · rw [if_pos h, if_neg (by omega), if_neg (by omega), if_neg (by omega), if_neg (by omega), if_neg (by omega),
      if_neg (by omega), if_neg (by omega)]
    exact s.writePage_staging _ _ _ _
  · rw [if_neg h]
    repeat' split
    all_goals rfl

theorem OnlyStaging.byteTaken {s t : State} (h : OnlyStaging s t) : OnlyStaging s t.byteTaken := by
  unfold OnlyStaging at h ⊢
  rw [h]
  rfl

/-- Settles O15: no step of a transfer, and no page write, reaches another block. -/
theorem transfersActOnNothingElse : Obligations.TransfersActOnNothingElse := by
  refine ⟨fun c s t hc h => ?_, fun s t v h => ?_⟩
  · rcases hc with ⟨service, ack, rfl | rfl⟩ | ⟨v, rfl | rfl⟩ | rfl | rfl <;> cases h
    · exact awake_transfer (fieldSnapshot_transfer service ack s)
    · exact awake_transfer (serveByte_transfer service ack s)
    · exact awake_transfer (addressByte_transfer v s)
    · exact awake_transfer (pointerWrite_transfer v s)
    · exact awake_transfer (f := transferEnd) rfl
    · exact awake_transfer (transferTimeout_transfer s)
  · cases h
    change OnlyStaging s (awake (registerWrite v) s)
    unfold awake
    split
    · rfl
    · unfold registerWrite
      split
      · exact (s.writeRegister_staging _ v).byteTaken
      · rfl

/-! ### The time base (R127) -/

theorem Timer.tick_none {t : Timer} (h : t = none) : t.tick = none := by
  rw [h]
  rfl

theorem Timer.tick_some {t : Timer} {left : Half} (h : t = some left) :
    t.tick = some (if left = 0 then 0 else left - 1) := by
  rw [h]
  rfl

/-- A message of an erase completion moves neither the clock nor the Scan Unit. -/
theorem State.receive_scan (s : State) (m : ClearMessage) :
    (s.receive m).timestamp = s.timestamp ∧ (s.receive m).scan = s.scan := by
  cases m with
  | store n => exact ⟨rfl, rfl⟩
  | engine n =>
    change (s.lockCleared n).timestamp = _ ∧ (s.lockCleared n).scan = _
    unfold State.lockCleared
    split
    · rw [s.recover_eq]
      exact ⟨rfl, rfl⟩
    · exact ⟨rfl, rfl⟩

theorem State.receiveAll_scan (s : State) : s.receiveAll.timestamp = s.timestamp ∧ s.receiveAll.scan = s.scan := by
  have list (l : List ClearMessage) (t : State) :
      (l.foldl State.receive t).timestamp = t.timestamp ∧ (l.foldl State.receive t).scan = t.scan := by
    induction l generalizing t with
    | nil => exact ⟨rfl, rfl⟩
    | cons m l ih =>
      obtain ⟨h1, h2⟩ := t.receive_scan m
      exact ⟨(ih _).1.trans h1, (ih _).2.trans h2⟩
  exact list _ _

/-- Settles O51: the tick of each timer; the messages taken first leave the clock and the Scan Unit. -/
theorem timeBaseTicks : Obligations.TimeBaseTicks := by
  intro s hs
  refine ⟨timeBaseTick s, congrArg Host.Outcome.next (awake_of hs timeBaseTick), ?_⟩
  dsimp only
  have hidle : s.fault.sent = [] → s.seq.failed = [] → s.receiveAll.takeFailures = s := fun h1 h2 => by
    rw [State.receiveAll_none h1, State.takeFailures_none h2]
  have hclock : s.receiveAll.takeFailures.timestamp = s.timestamp ∧ s.receiveAll.takeFailures.scan = s.scan := by
    obtain ⟨h1, h2⟩ := s.receiveAll_scan
    obtain ⟨_, _, _, h⟩ := s.receiveAll.takeFailures_switching
    rw [h]
    exact ⟨h1, h2⟩
  unfold timeBaseTick
  generalize s.receiveAll.takeFailures = u at hidle hclock ⊢
  obtain ⟨htime, hscan⟩ := hclock
  refine ⟨hidle, by rw [← htime]; rfl, fun n => ?_, fun i => ?_, ?_, ?_⟩
  · refine ⟨u.entries[n].dwellTimer.tick, u.entries[n].recoveryTimer.tick, ?_, Timer.tick_none, Timer.tick_none,
      fun _ => Timer.tick_some, fun _ => Timer.tick_some⟩
    change (u.entries.map Entry.tick)[n] = _
    simp [Entry.tick]
  · refine ⟨u.switches[i].rampTimer.tick, ?_, Timer.tick_none, fun _ => Timer.tick_some⟩
    change (u.switches.map Switch.tick)[i] = _
    simp [Switch.tick]
  · exact ⟨u.seq.stepLimit.tick, u.seq.discharge.tick, u.seq.settle.tick, rfl, Timer.tick_none, Timer.tick_none,
      Timer.tick_none, fun _ => Timer.tick_some, fun _ => Timer.tick_some, fun _ => Timer.tick_some⟩
  · rw [← hscan]
    rfl

end Sys2Proof.Machine
end

section
/-! SUPPORT. An evaluation by the state of its entry (R3, R4, R7, R24 to R45). -/

namespace Sys2Proof.Machine

/-! ### Evaluations (R3, R4, R7) -/

/-- Saturation clamps to the reading range (R7). -/
theorem saturate_eq (x : Int) : saturate x = BitVec.ofInt 16 (max (-32768) (min x 32767)) := by
  unfold saturate
  split
  · congr 1
    omega
  · split <;> congr 1 <;> omega

theorem saturate_toInt (x : Int) : (saturate x).toInt = max (-32768) (min x 32767) := by
  rw [saturate_eq, BitVec.toInt_ofInt_eq_self (by decide)] <;> omega

theorem tripCondition_iff (c : EntryConfig) (v : Reading) (x : Int) :
    tripCondition c.isBelow v (saturate x) = true ↔
      if c.direction = 1 then v.toInt ≤ max (-32768) (min x 32767) else max (-32768) (min x 32767) ≤ v.toInt := by
  unfold tripCondition
  rw [saturate_toInt]
  by_cases h : c.direction = 1 <;> simp [EntryConfig.isBelow, h]

theorem recoveryCondition_iff (c : EntryConfig) (v : Reading) (x : Int) :
    recoveryCondition c.isBelow v (saturate x) = true ↔
      if c.direction = 1 then max (-32768) (min x 32767) < v.toInt else v.toInt < max (-32768) (min x 32767) := by
  unfold recoveryCondition
  rw [saturate_toInt]
  by_cases h : c.direction = 1 <;> simp [EntryConfig.isBelow, h]

theorem MeasRecord.valueFor_eq (m : MeasRecord) (c : EntryConfig) :
    m.valueFor c = if c.valueKind = 1 then m.average else m.latest := by
  simp [MeasRecord.valueFor, EntryConfig.isAverage]

/-- The trip condition of an evaluation of source `r` by entry `n` (R4, R7). -/
def State.trips (s : State) (r : Fin 22) (n : Fin 32) : Bool :=
  tripCondition s.entries[n].config.isBelow (s.records[r].valueFor s.entries[n].config)
    (s.effectiveTrip s.entries[n].config)

/-- The recovery condition of an evaluation of source `r` by entry `n` (R4, R7). -/
def State.recovers (s : State) (r : Fin 22) (n : Fin 32) : Bool :=
  recoveryCondition s.entries[n].config.isBelow (s.records[r].valueFor s.entries[n].config)
    (s.effectiveRecovery s.entries[n].config)

/-- The figures that an evaluation of source `r` gives entry `n` (R10). -/
def State.figures (s : State) (r : Fin 22) (n : Fin 32) : DwellRecord :=
  { value := s.records[r].valueFor s.entries[n].config
    threshold := s.effectiveTrip s.entries[n].config
    frame := s.scan.frameNumber }

section evaluate
variable {s : State} {r : Fin 22} {n : Fin 32}

theorem State.evaluate_invalid (h : s.records[r].valid = false) : s.evaluate r n = s :=
  if_neg (show ¬s.records[r].valid = true from Bool.not_eq_true _ ▸ h)

theorem State.evaluate_still (h : s.records[r].valid = true)
    (hs : s.entries[n].state = .off ∨ s.entries[n].state = .locked) : s.evaluate r n = s := by
  refine (if_pos h).trans ?_
  rcases hs with hs | hs <;> rw [hs]

theorem State.evaluate_idle (h : s.records[r].valid = true) (hs : s.entries[n].state = .idle) :
    s.evaluate r n = s.evaluateIdle n (s.trips r n) (s.figures r n) := by
  refine (if_pos h).trans ?_
  rw [hs]
  rfl

theorem State.evaluate_pending (h : s.records[r].valid = true) (hs : s.entries[n].state = .pending) :
    s.evaluate r n = s.evaluatePending n (s.trips r n) (s.figures r n) := by
  refine (if_pos h).trans ?_
  rw [hs]
  rfl

theorem State.evaluate_asserted (h : s.records[r].valid = true) (hs : s.entries[n].state = .asserted) :
    s.evaluate r n = s.evaluateAsserted n (s.recovers r n) := by
  refine (if_pos h).trans ?_
  rw [hs]
  rfl

theorem State.evaluate_letting (h : s.records[r].valid = true)
    (hs : s.entries[n].state = .recovering ∨ s.entries[n].state = .releasable) :
    s.evaluate r n = if s.recovers r n then s else s.modEntry n fun x => x.rest .asserted := by
  refine (if_pos h).trans ?_
  rcases hs with hs | hs <;> rw [hs] <;> rfl

end evaluate

/-- A transient, reported or not (R27). -/
theorem State.evaluatePending_transient (s : State) (n : Fin 32) (d : DwellRecord) :
    s.evaluatePending n false d =
      if s.entries[n].config.transients = 0 then
        s.modEntry n fun e => { e.rest .idle with transients := satSucc8 e.transients }
      else
        (s.modEntry n fun e => { e.rest .idle with transients := satSucc8 e.transients }).post .entryTransient
          (some n.val) ((satSucc8 s.entries[n].transients).setWidth 16) s.entries[n].config.classOf := by
  by_cases h : s.entries[n].config.transients = 0 <;>
    simp_all [State.evaluatePending, State.modEntry, Entry.rest, EntryConfig.isReporting]

/-- A recovery in ASSERTED, by mode and time (R39). -/
theorem State.evaluateAsserted_recovered (s : State) (n : Fin 32) :
    s.evaluateAsserted n true =
      if s.entries[n].config.recoveryMode = 1 then s.modEntry n fun e => e.rest .releasable
      else if s.entries[n].config.recoveryTime = 0 then s.returned n 1
      else s.modEntry n fun e => { e.rest .recovering with recoveryTimer := some e.config.recoveryTime } := by
  by_cases h : s.entries[n].config.recoveryMode = 1 <;>
    simp_all [State.evaluateAsserted, EntryConfig.isHostMode, State.recover_eq, RecoverCause.code]

/-- Settles O29: the conditions in the words of R4 and R7, then the evaluation by the state of the entry. -/
theorem evaluationByState : Obligations.EvaluationByState := by
  intro s r n e c v shift tripAt recoverAt trip recovered d moved
  have hv : s.records[r].valueFor c = v := s.records[r].valueFor_eq c
  have hshift : s.derateShift c = shift := by
    unfold State.derateShift shift
    cases c.reference <;> rfl
  have htrip : s.trips r n = true ↔ trip := by
    rw [show s.trips r n = tripCondition c.isBelow v (saturate (c.trip.toInt + shift)) by rw [← hv, ← hshift]; rfl]
    exact tripCondition_iff c v _
  have hrec : s.recovers r n = true ↔ recovered := by
    rw [show s.recovers r n = recoveryCondition c.isBelow v (saturate (c.recovery.toInt + shift)) by
      rw [← hv, ← hshift]; rfl]
    exact recoveryCondition_iff c v _
  have hfig : s.figures r n = d := by
    rw [show s.figures r n = { value := v, threshold := saturate (c.trip.toInt + shift), frame := s.scan.frameNumber } by
      rw [← hv, ← hshift]; rfl, saturate_eq]
  clear_value trip recovered d
  refine ⟨State.evaluate_invalid, fun h => ⟨State.evaluate_still h, ?_, ?_, ?_, ?_, ?_, ?_, ?_, ?_, ?_, ?_⟩⟩
  · rintro ⟨hs, ht⟩
    rw [← htrip] at ht
    rw [State.evaluate_idle h hs]
    exact if_neg ht
  · rintro ⟨hs, ht, hd⟩
    rw [State.evaluate_idle h hs, htrip.2 ht, hfig]
    exact if_pos hd
  · rintro ⟨hs, ht, hd⟩
    rw [State.evaluate_idle h hs, htrip.2 ht, hfig]
    exact if_neg hd
  · rintro ⟨hs, ht⟩
    rw [State.evaluate_pending h hs, htrip.2 ht, hfig]
    rfl
  · rintro ⟨hs, ht⟩
    rw [← htrip, Bool.not_eq_true] at ht
    rw [State.evaluate_pending h hs, ht, State.evaluatePending_transient]
    exact ⟨fun h => if_pos h, fun h => if_neg h⟩
  · rintro ⟨hs, hr⟩
    rw [← hrec] at hr
    rw [State.evaluate_asserted h hs]
    exact if_neg hr
  · rintro ⟨hs, hr, hm⟩
    rw [State.evaluate_asserted h hs, hrec.2 hr, State.evaluateAsserted_recovered, if_pos hm]
    rfl
  · rintro ⟨hs, hr, hm, ht⟩
    rw [State.evaluate_asserted h hs, hrec.2 hr, State.evaluateAsserted_recovered, if_neg hm, if_pos ht]
  · rintro ⟨hs, hr, hm, ht⟩
    rw [State.evaluate_asserted h hs, hrec.2 hr, State.evaluateAsserted_recovered, if_neg hm, if_neg ht]
    rfl
  · intro hs
    rw [State.evaluate_letting h hs, ← hrec]
    exact ⟨fun hr => if_pos hr, fun hr => if_neg hr⟩

end Sys2Proof.Machine
end

section
/-! SUPPORT. The staging pages byte by byte: what a byte written to a page stores (R176 to R180). -/

namespace Sys2Proof.Machine

/-! ### Bytes of a field (R170) -/

@[simp] theorem byteOf_setLow_zero (x : Half) (b : Byte) : byteOf (setLow x b) 0 = b :=
  BitVec.extractLsb'_append_eq_right

@[simp] theorem byteOf_setLow_one (x : Half) (b : Byte) : byteOf (setLow x b) 1 = byteOf x 1 :=
  BitVec.extractLsb'_append_eq_left

@[simp] theorem byteOf_setHigh_zero (x : Half) (b : Byte) : byteOf (setHigh x b) 0 = byteOf x 0 :=
  BitVec.extractLsb'_append_eq_right

@[simp] theorem byteOf_setHigh_one (x : Half) (b : Byte) : byteOf (setHigh x b) 1 = b :=
  BitVec.extractLsb'_append_eq_left

/-! ### The staging records, byte by byte (R176 to R180) -/

/-- `c'` is `c` with the byte `b` stored at place `i`: it reads back there where the layout gives the place a field, every
other place reads as before, and a byte for no field is ignored (R176). -/
structure Stores {α ι : Type} (byte : α → ι → Byte) (field : Prop) (c c' : α) (i : ι) (b : Byte) : Prop where
  same : field → byte c' i = b
  other : ∀ j, j ≠ i → byte c' j = byte c j
  ignored : ¬field → c' = c

theorem EntryConfig.setByte_stores (c : EntryConfig) (off : Nat) (b : Byte) :
    Stores EntryConfig.byte (off ≤ 0x1B ∧ off ≠ 0x0B ∧ off ≠ 0x15) c (c.setByte off b) off b := by
  unfold EntryConfig.setByte
  refine ⟨fun ⟨h1, h2, h3⟩ => ?_, fun o h => ?_, fun h => ?_⟩
  · split
    case h_27 => grind
    all_goals simp [EntryConfig.byte]
  · split
    all_goals
      unfold EntryConfig.byte
      split <;> simp at h ⊢
  · split
    case h_27 => rfl
    all_goals simp at h

theorem ChannelStaging.setByte_stores (c : ChannelStaging) (off : Nat) (b : Byte) :
    Stores ChannelStaging.byte (off ≤ 0x06 ∧ off ≠ 0x01) c (c.setByte off b) off b := by
  unfold ChannelStaging.setByte
  refine ⟨fun ⟨h1, h2⟩ => ?_, fun o h => ?_, fun h => ?_⟩
  · split
    case h_7 => grind
    all_goals simp [ChannelStaging.byte]
  · split
    all_goals
      unfold ChannelStaging.byte
      split <;> simp at h ⊢
  · split
    case h_7 => rfl
    all_goals simp at h

theorem SwitchConfig.setByte_stores (c : SwitchConfig) (off : Nat) (b : Byte) :
    Stores SwitchConfig.byte (off ≤ 0x0B) c (c.setByte off b) off b := by
  unfold SwitchConfig.setByte
  refine ⟨fun h1 => ?_, fun o h => ?_, fun h => ?_⟩
  · split
    case h_13 => grind
    all_goals simp [SwitchConfig.byte]
  · split
    all_goals
      unfold SwitchConfig.byte
      split <;> simp at h ⊢
  · split
    case h_13 => rfl
    all_goals simp at h

theorem DerivedWritten.byte_setByte (w : DerivedWritten) {i j : Nat} (hi : i < 4) (hj : j < 4) (b : Byte) :
    (w.setByte i b).byte j = if j = i then b else w.byte j := by
  interval_cases i <;> interval_cases j <;> rfl

theorem StagedSeqStep.timing_setTiming (t : StagedSeqStep) {i j : Nat} (hi : i < 4) (hj : j < 4) (b : Byte) :
    (t.setTiming i b).timing j = if j = i then b else t.timing j := by
  interval_cases i <;> interval_cases j <;> simp [StagedSeqStep.timing, StagedSeqStep.setTiming]

@[simp] theorem StagedSeqStep.setTiming_switch (t : StagedSeqStep) (i : Nat) (b : Byte) :
    (t.setTiming i b).switch = t.switch := by
  unfold StagedSeqStep.setTiming
  split <;> rfl

/-- The offset of a byte in groups of four, by its group and its place there. -/
theorem group_place_inj {i j : Nat} (hq : i / 4 = j / 4) (hr : i % 4 = j % 4) : i = j := by
  omega

/-- The byte `j` of a staged step of the Scan List (R180). -/
def StagedScanStep.byteAt (u : StagedScanStep) (j : Nat) : Byte :=
  match j with
  | 0 => u.a
  | 1 => u.b
  | 2 => u.c
  | _ => u.settle

/-- A byte written to a staged step of the Scan List (R180). -/
def StagedScanStep.setByteAt (u : StagedScanStep) (j : Nat) (b : Byte) : StagedScanStep :=
  match j with
  | 0 => { u with a := b }
  | 1 => { u with b := b }
  | 2 => { u with c := b }
  | _ => { u with settle := b }

theorem StagedScanStep.byteAt_setByteAt (u : StagedScanStep) {i j : Nat} (hi : i < 4) (hj : j < 4) (b : Byte) :
    (u.setByteAt i b).byteAt j = if j = i then b else u.byteAt j := by
  interval_cases i <;> interval_cases j <;> rfl

theorem ScanStaging.byte_eq (t : ScanStaging) (off : Nat) : t.byte off =
    if off = 0 then t.length
    else if h : 4 ≤ off ∧ off < 52 then t.steps[(off - 4) / 4].byteAt ((off - 4) % 4) else 0 := rfl

theorem ScanStaging.setByte_eq (t : ScanStaging) (off : Nat) (b : Byte) : t.setByte off b =
    if off = 0 then { t with length := b }
    else if h : 4 ≤ off ∧ off < 52 then
      { t with steps := t.steps.set ((off - 4) / 4) (t.steps[(off - 4) / 4].setByteAt ((off - 4) % 4) b) }
    else t := rfl

theorem ScanStaging.setByte_stores (t : ScanStaging) (off : Nat) (b : Byte) :
    Stores ScanStaging.byte (off = 0 ∨ 4 ≤ off ∧ off < 52) t (t.setByte off b) off b := by
  have byteAt_setByteAt (u : StagedScanStep) (i j : Nat) :=
    u.byteAt_setByteAt (Nat.mod_lt i (by decide : 0 < 4)) (Nat.mod_lt j (by decide : 0 < 4)) b
  refine ⟨fun h => ?_, fun o h => ?_, fun h => ?_⟩
  · rcases h with rfl | h
    · rfl
    · have h0 : off ≠ 0 := by omega
      simp [ScanStaging.byte_eq, ScanStaging.setByte_eq, h0, h, byteAt_setByteAt]
  · by_cases hs : off ≠ 0 ∧ 4 ≤ off ∧ off < 52
    · obtain ⟨h0, hs⟩ := hs
      rw [ScanStaging.setByte_eq, if_neg h0, dif_pos hs, ScanStaging.byte_eq, ScanStaging.byte_eq]
      split
      · rfl
      · split
        · rw [Vector.getElem_set]
          split
          · rename_i hq
            have hr : (o - 4) % 4 ≠ (off - 4) % 4 := fun hr => h (by omega)
            rw [byteAt_setByteAt, if_neg hr]
            simp only [hq]
          · rfl
        · rfl
    · by_cases h0 : off = 0
      · have ho : o ≠ 0 := h0 ▸ h
        rw [ScanStaging.setByte_eq, if_pos h0, ScanStaging.byte_eq, ScanStaging.byte_eq, if_neg ho, if_neg ho]
      · rw [ScanStaging.setByte_eq, if_neg h0, dif_neg fun h => hs ⟨h0, h⟩]
  · rw [ScanStaging.setByte_eq, if_neg fun h0 => h (.inl h0), dif_neg fun hs => h (.inr hs)]

/-- A place of page 0x43 reads as before where a replaced step of the Up List agrees with the one before: its timing bytes are
on part 0, its switch on part 2. -/
theorem SeqStaging.byte_setUp {t : SeqStaging} {k : Nat} {hk : k < 16} {u : StagedSeqStep} {p o : Nat}
    (htime : p = 0 → o / 4 = k → u.timing (o % 4) = t.up[k].timing (o % 4))
    (hswitch : p = 2 → o = 0x10 + k → u.switch = t.up[k].switch) :
    ({ t with up := t.up.set k u } : SeqStaging).byte p o = t.byte p o := by
  unfold SeqStaging.byte
  split
  · split <;> grind
  · rfl

/-- The same for the Down List, its timing bytes on part 1. -/
theorem SeqStaging.byte_setDown {t : SeqStaging} {k : Nat} {hk : k < 16} {u : StagedSeqStep} {p o : Nat}
    (htime : p = 1 → o / 4 = k → u.timing (o % 4) = t.down[k].timing (o % 4))
    (hswitch : p = 2 → o = 0x20 + k → u.switch = t.down[k].switch) :
    ({ t with down := t.down.set k u } : SeqStaging).byte p o = t.byte p o := by
  unfold SeqStaging.byte
  split
  · split <;> grind
  · rfl

theorem SeqStaging.byte_setByte_other (t : SeqStaging) {part off p o : Nat} (b : Byte) (h : (p, o) ≠ (part, off)) :
    (t.setByte part off b).byte p o = t.byte p o := by
  have timing (u : StagedSeqStep) (hq : o / 4 = off / 4) (ho : o ≠ off) :
      (u.setTiming (off % 4) b).timing (o % 4) = u.timing (o % 4) := by
    rw [u.timing_setTiming (Nat.mod_lt off (by decide)) (Nat.mod_lt o (by decide)), if_neg]
    omega
  unfold SeqStaging.setByte
  split
  · split
    · exact SeqStaging.byte_setUp (fun hp hq => timing _ hq fun ho => h (by rw [hp, ho])) fun _ _ =>
        StagedSeqStep.setTiming_switch ..
    · exact SeqStaging.byte_setDown (fun hp hq => timing _ hq fun ho => h (by rw [hp, ho])) fun _ _ =>
        StagedSeqStep.setTiming_switch ..
    · split
      · unfold SeqStaging.byte
        grind
      · split
        · unfold SeqStaging.byte
          grind
        · split
          · exact SeqStaging.byte_setUp (fun _ _ => rfl) fun hp ho => absurd (by rw [hp]; congr 1; omega) h
          · split
            · exact SeqStaging.byte_setDown (fun _ _ => rfl) fun hp ho => absurd (by rw [hp]; congr 1; omega) h
            · rfl
    · rfl
  · rfl

theorem SeqStaging.setByte_stores (t : SeqStaging) (part off : Nat) (b : Byte) :
    Stores (fun (t : SeqStaging) (i : Nat × Nat) => t.byte i.1 i.2)
      (off < 64 ∧ (part ≤ 1 ∨ part = 2 ∧ (off ≤ 1 ∨ 0x10 ≤ off ∧ off < 0x30))) t (t.setByte part off b) (part, off) b := by
  refine ⟨fun ⟨hoff, hp⟩ => ?_, fun ⟨p, o⟩ h => t.byte_setByte_other b h, fun h => ?_⟩
  · have timing (u : StagedSeqStep) : (u.setTiming (off % 4) b).timing (off % 4) = b := by
      rw [u.timing_setTiming (Nat.mod_lt off (by decide)) (Nat.mod_lt off (by decide)), if_pos rfl]
    rcases hp with hp | ⟨rfl, hs⟩
    · interval_cases part <;> simp [SeqStaging.byte, SeqStaging.setByte, hoff, timing]
    · simp only [SeqStaging.byte, SeqStaging.setByte, hoff]
      grind
  · unfold SeqStaging.setByte
    grind

/-- The written derived configurations, by the offsets of page 0x52 (R178). -/
def derivedByte (w : Vector DerivedWritten 4) (off : Nat) : Byte :=
  if h : off < 16 then w[off / 4].byte (off % 4) else 0

/-- A byte written to the derived configurations of page 0x52 (R121, R178). -/
def setDerivedByte (w : Vector DerivedWritten 4) (off : Nat) (b : Byte) : Vector DerivedWritten 4 :=
  if h : off < 16 then w.set (off / 4) (w[off / 4].setByte (off % 4) b) else w

theorem setDerivedByte_stores (w : Vector DerivedWritten 4) (off : Nat) (b : Byte) :
    Stores derivedByte (off < 16) w (setDerivedByte w off b) off b := by
  refine ⟨fun h => ?_, fun o h => ?_, fun h => dif_neg h⟩
  · simp [derivedByte, setDerivedByte, h, DerivedWritten.byte_setByte _ (Nat.mod_lt off (by decide)) (Nat.mod_lt off (by decide))]
  · unfold derivedByte setDerivedByte
    by_cases ho : off < 16
    · by_cases h' : o < 16
      · simp only [ho, h', dif_pos, Vector.getElem_set]
        by_cases hq : off / 4 = o / 4
        · have hr : o % 4 ≠ off % 4 := fun hr => h (group_place_inj hq.symm hr)
          simp only [hq, if_true, DerivedWritten.byte_setByte _ (Nat.mod_lt off (by decide)) (Nat.mod_lt o (by decide)), if_neg hr]
        · rw [if_neg hq]
      · rw [dif_neg h', dif_neg h']
    · rw [dif_neg ho]

/-! ### The pages (R176) -/

section pageByte
variable (s : State) (q p o : Nat)

theorem State.pageByte_entryStaging (c : EntryConfig) : ({ s with entryStaging := c } : State).pageByte q p o =
    if q = 0x00 ∧ p = 0 then c.byte o else s.pageByte q p o := by
  unfold State.pageByte
  by_cases hq : q = 0x00
  · by_cases hp : p = 0 <;> simp [hq, hp, isSequencePage]
  · simp only [hq, if_false, false_and]

theorem State.pageByte_channelStaging (c : ChannelStaging) :
    (s.modScan fun u => { u with channelStaging := c }).pageByte q p o =
      if q = 0x21 ∧ p = 0 then c.byte o else s.pageByte q p o := by
  unfold State.pageByte
  by_cases hq : q = 0x21
  · by_cases hp : p = 0 <;> simp [hq, hp, isSequencePage, State.modScan]
  · simp only [hq, if_false, false_and]
    rfl

theorem State.pageByte_switchStaging (c : SwitchConfig) : ({ s with switchStaging := c } : State).pageByte q p o =
    if q = 0x38 ∧ p = 0 then c.byte o else s.pageByte q p o := by
  unfold State.pageByte
  by_cases hq : q = 0x38
  · by_cases hp : p = 0 <;> simp [hq, hp, isSequencePage]
  · simp only [hq, if_false, false_and]

theorem State.pageByte_seqStaging (c : SeqStaging) :
    (s.modSeq fun u => { u with staging := c }).pageByte q p o = if q = 0x43 then c.byte p o else s.pageByte q p o := by
  unfold State.pageByte
  by_cases hq : q = 0x43
  · simp [hq, isSequencePage, State.modSeq]
  · simp only [hq, if_false]
    rfl

theorem State.pageByte_scanStaging (c : ScanStaging) :
    (s.modScan fun u => { u with staging := c }).pageByte q p o =
      if q = 0x44 ∧ p = 0 then c.byte o else s.pageByte q p o := by
  unfold State.pageByte
  by_cases hq : q = 0x44
  · by_cases hp : p = 0 <;> simp [hq, hp, isSequencePage, State.modScan]
  · simp only [hq, if_false, false_and]
    rfl

theorem State.pageByte_derivedWritten (w : Vector DerivedWritten 4) :
    ({ s with derivedWritten := w } : State).pageByte q p o =
      if q = 0x52 ∧ p = 0 then derivedByte w o else s.pageByte q p o := by
  unfold State.pageByte
  by_cases hq : q = 0x52
  · by_cases hp : p = 0 <;> simp [hq, hp, isSequencePage, derivedByte]
  · simp only [hq, if_false, false_and]

end pageByte

/-- A byte of a page, by page, part and offset. -/
def State.placeByte (s : State) (i : Nat × Nat × Nat) : Byte := s.pageByte i.1 i.2.1 i.2.2

/-- A staging record that one page without parts shows: a byte stored in the record is a byte stored on the page. -/
theorem Stores.onPage {α : Type} {byte : α → Nat → Byte} {field : Prop} {c c' : α} {page off : Nat} {b : Byte} {s : State}
    {put : α → State} (h : Stores byte field c c' off b) (hs : put c = s)
    (read : ∀ x q p o, (put x).pageByte q p o = if q = page ∧ p = 0 then byte x o else s.pageByte q p o) :
    Stores State.placeByte field s (put c') (page, 0, off) b := by
  refine ⟨fun hf => ?_, fun ⟨q, p, o⟩ hne => ?_, fun hf => ?_⟩
  · exact (read c' page 0 off).trans ((if_pos ⟨rfl, rfl⟩).trans (h.same hf))
  · have before := read c q p o
    rw [hs] at before
    refine (read c' q p o).trans ?_
    split
    · rename_i hq
      obtain ⟨rfl, rfl⟩ := hq
      rw [h.other o fun ho => hne (by rw [ho])]
      exact ((if_pos ⟨rfl, rfl⟩).symm.trans before.symm)
    · rfl
  · rw [h.ignored hf, hs]

/-- The places of the pages that hold a staging field (R176 to R180). -/
def isStagingField (page part off : Nat) : Bool :=
  (page == 0x00 && part == 0 && decide (off ≤ 0x1B) && off != 0x0B && off != 0x15) ||
  (page == 0x21 && part == 0 && decide (off ≤ 0x06) && off != 0x01) ||
  (page == 0x38 && part == 0 && decide (off ≤ 0x0B)) ||
  (page == 0x43 && (decide (part ≤ 1) || (part == 2 && (decide (off ≤ 1) || decide (0x10 ≤ off ∧ off < 0x30))))) ||
  (page == 0x44 && part == 0 && (off == 0 || decide (4 ≤ off ∧ off < 52))) ||
  (page == 0x52 && part == 0 && decide (off < 16))

theorem Stores.of_iff {α ι : Type} {byte : α → ι → Byte} {f g : Prop} {c c' : α} {i : ι} {b : Byte}
    (h : Stores byte f c c' i b) (hfg : f ↔ g) : Stores byte g c c' i b := by
  rwa [← hfg]

/-- Nothing is stored for a place without a field. -/
theorem Stores.none {α ι : Type} {byte : α → ι → Byte} {f : Prop} {c : α} {i : ι} {b : Byte} (h : ¬f) :
    Stores byte f c c i b :=
  ⟨fun hf => absurd hf h, fun _ _ => rfl, fun _ => rfl⟩

/-- Sequence staging, on the three parts of its page. -/
theorem State.seqStaging_stores (s : State) {part off : Nat} (hoff : off < 0x40) (b : Byte) :
    Stores State.placeByte (isStagingField 0x43 part off = true) s
      (s.modSeq fun q => { q with staging := q.staging.setByte part off b }) (0x43, part, off) b := by
  have h := s.seq.staging.setByte_stores part off b
  have read (c : SeqStaging) (i : Nat × Nat × Nat) :
      (s.modSeq fun q => { q with staging := c }).placeByte i = if i.1 = 0x43 then c.byte i.2.1 i.2.2 else s.placeByte i :=
    s.pageByte_seqStaging i.1 i.2.1 i.2.2 c
  have field : isStagingField 0x43 part off = true ↔
      off < 64 ∧ (part ≤ 1 ∨ part = 2 ∧ (off ≤ 1 ∨ 0x10 ≤ off ∧ off < 0x30)) := by
    simp [isStagingField, hoff]
  refine ⟨fun hf => ?_, fun ⟨q, p, o⟩ hne => ?_, fun hf => ?_⟩
  · exact (read _ _).trans ((if_pos rfl).trans (h.same (field.1 hf)))
  · refine (read _ _).trans ?_
    split
    · rename_i hq
      have hq : q = 0x43 := hq
      have before := read s.seq.staging (q, p, o)
      rw [if_pos hq] at before
      exact (h.other (p, o) fun e => hne (by rw [hq, e])).trans before.symm
    · rfl
  · have hs := h.ignored fun g => hf (field.2 g)
    change (s.modSeq fun q => { q with staging := s.seq.staging.setByte part off b }) = s
    rw [hs]
    rfl

/-- A byte written to the page shown is stored where the layout of the page gives its place a field (R176). -/
theorem State.writePage_stores (s : State) {page part off : Nat} (hoff : off < 0x40) (b : Byte) :
    Stores State.placeByte (isStagingField page part off = true) s (s.writePage page part off b) (page, part, off) b := by
  unfold State.writePage
  split
  · rename_i h
    refine .none ?_
    have hp : part ≠ 0 := h.1
    have hq : page ≠ 0x43 := fun e => absurd h.2 (by simp [e, isSequencePage])
    simp [isStagingField, hp, hq]
  · rename_i h
    have part0 (hq : isSequencePage page = false) : part = 0 := by simpa [hq] using h
    split
    next hq =>
      subst hq
      obtain rfl := part0 rfl
      exact (s.entryStaging.setByte_stores off b |>.onPage (put := fun c => { s with entryStaging := c }) rfl
        fun x q p o => s.pageByte_entryStaging q p o x).of_iff (by simp [isStagingField, and_assoc])
    split
    next hq =>
      subst hq
      obtain rfl := part0 rfl
      exact (s.scan.channelStaging.setByte_stores off b |>.onPage
        (put := fun c => s.modScan fun u => { u with channelStaging := c }) rfl
        fun x q p o => s.pageByte_channelStaging q p o x).of_iff (by simp [isStagingField])
    split
    next hq =>
      subst hq
      obtain rfl := part0 rfl
      exact (s.switchStaging.setByte_stores off b |>.onPage (put := fun c => { s with switchStaging := c }) rfl
        fun x q p o => s.pageByte_switchStaging q p o x).of_iff (by simp [isStagingField])
    split
    next hq =>
      subst hq
      exact s.seqStaging_stores hoff b
    split
    next hq =>
      subst hq
      obtain rfl := part0 rfl
      exact (s.scan.staging.setByte_stores off b |>.onPage (put := fun c => s.modScan fun u => { u with staging := c }) rfl
        fun x q p o => s.pageByte_scanStaging q p o x).of_iff (by simp [isStagingField])
    split
    next hq =>
      subst hq
      obtain rfl := part0 rfl
      have h := (setDerivedByte_stores s.derivedWritten off b).onPage (put := fun w => { s with derivedWritten := w }) rfl
        fun x q p o => s.pageByte_derivedWritten q p o x
      have field : off < 16 ↔ isStagingField 0x52 0 off = true := by simp [isStagingField]
      split
      next ho =>
        rw [setDerivedByte, dif_pos ho] at h
        exact h.of_iff field
      next ho =>
        rw [setDerivedByte, dif_neg ho] at h
        exact h.of_iff field
    next h0 h1 h2 h3 h4 h5 =>
      refine .none ?_
      simp [isStagingField, h0, h1, h2, h3, h4, h5]

/-- A data byte taken in the page area is written to the page shown (R176). -/
theorem registerWrite_page {s : State} {a : Byte} {off : Nat} (h : s.byteTakenAt a) (ha : a.toNat = 0x40 + off)
    (hoff : off < 0x40) (v : Byte) : exec (.registerWrite v) s =
      .next (s.writePage s.port.page.toNat s.port.part.toNat off v).byteTaken := by
  obtain ⟨hs, hw, rfl⟩ := h
  have own : hasOwnRow s.port.pointer.toNat = false := by
    simp only [hasOwnRow, Bool.or_eq_false_iff, beq_eq_false_iff_ne]
    omega
  refine congrArg Host.Outcome.next ((awake_of hs (registerWrite v)).trans ?_)
  unfold registerWrite State.writeRegister
  rw [if_pos ⟨hw, by rw [own]; rfl⟩, ha]
  repeat rw [if_neg (by omega)]
  rw [if_pos ⟨by omega, by omega⟩, Nat.add_sub_cancel_left]

/-- Settles O14: the byte is stored on the page shown, and the port's own move is on no page. -/
theorem pagedWritesReadBack : Obligations.PagedWritesReadBack := by
  intro s t a v off ha hpage hoff ht
  have stores := s.writePage_stores (page := s.port.page.toNat) (part := s.port.part.toNat) hoff v
  have hexec := registerWrite_page ha hpage hoff v
  rw [ht] at hexec
  cases hexec
  refine ⟨stores.same, fun hf => ?_, fun q p o _ hne => stores.other (q, p, o) hne⟩
  rw [stores.ignored (Bool.not_eq_true _ ▸ hf)]
  rfl

end Sys2Proof.Machine
end

section
/-! SUPPORT. Pending loads at a frame start and when the Scan Unit becomes quiet (R16 to R18, R97 to R121). -/

namespace Sys2Proof.Machine

/-! ### Records invalidated (R64, R117) -/

/-- Setting the indicator of a switch false. -/
def Switch.undischarged (w : Switch) : Switch := { w with discharged := false }

theorem State.setIndicator_false (s : State) (i : Fin 8) : s.setIndicator i false = s.modSwitch i Switch.undischarged := by
  unfold State.setIndicator
  split
  next h =>
    have hw : s.switches[i].undischarged = s.switches[i] := by
      unfold Switch.undischarged
      rw [← h]
    unfold State.modSwitch
    rw [hw]
    exact congrArg (fun w => { s with switches := w }) (Vector.set_getElem_self i.isLt).symm
  next => exact State.seqIndicator_false _ _

/-- A change that is its own repetition, made where either of two conditions holds. -/
theorem ite_ite_idem {α : Type} {f : α → α} (hf : ∀ x, f (f x) = f x) (p q : Prop) [Decidable p] [Decidable q] (x : α) :
    (if q then f (if p then f x else x) else if p then f x else x) = if p ∨ q then f x else x := by
  by_cases hp : p <;> by_cases hq : q <;> simp [hp, hq, hf]

/-- The records of the channels of a list are invalidated, and the switches that watch one of them have their indicators
false (R64, R117). -/
def State.invalidated (s : State) (l : List (Fin 18)) : State :=
  { s with
    records := Vector.ofFn fun r =>
      if ∃ ch ∈ l, channelSource ch = r then s.records[r].invalidated else s.records[r]
    switches := Vector.ofFn fun i =>
      if ∃ ch ∈ l, s.switches[i].config.channelOf = some ch then s.switches[i].undischarged else s.switches[i] }

theorem State.invalidated_nil (s : State) : s.invalidated [] = s := by
  simp [State.invalidated]

theorem State.invalidated_append (s : State) (l l' : List (Fin 18)) :
    (s.invalidated l).invalidated l' = s.invalidated (l ++ l') := by
  have config (p : Prop) [Decidable p] (w : Switch) : (if p then w.undischarged else w).config = w.config := by
    split <;> rfl
  refine congrArg₂ (fun x y => ({ s with records := x, switches := y } : State)) ?_ ?_
  · refine Vector.ext fun r hr => ?_
    simp only [State.invalidated, Vector.getElem_ofFn, Fin.getElem_fin, List.mem_append, or_and_right, exists_or]
    exact ite_ite_idem (f := MeasRecord.invalidated) (fun _ => rfl) _ _ _
  · refine Vector.ext fun i hi => ?_
    simp only [State.invalidated, Vector.getElem_ofFn, Fin.getElem_fin, List.mem_append, or_and_right, exists_or, config]
    exact ite_ite_idem (f := Switch.undischarged) (fun _ => rfl) _ _ _

/-- The indicators that a list of switches sets false. -/
theorem State.foldl_setIndicator (l : List (Fin 8)) (s : State) :
    l.foldl (fun t i => t.setIndicator i false) s = { s with
      switches := Vector.ofFn fun i => if i ∈ l then s.switches[i].undischarged else s.switches[i] } := by
  induction l generalizing s with
  | nil => simp
  | cons a l ih =>
    rw [List.foldl_cons, ih, State.setIndicator_false]
    refine congrArg (fun w => ({ s with switches := w } : State)) ?_
    refine Vector.ext fun i hi => ?_
    simp only [State.modSwitch, Vector.getElem_ofFn, Fin.getElem_fin, Vector.getElem_set, List.mem_cons]
    by_cases hi : a.val = i
    · subst hi
      simp [Switch.undischarged]
    · have ha : ¬(⟨i, by assumption⟩ : Fin 8) = a := fun e => hi (congrArg Fin.val e).symm
      simp only [hi, ha, if_false, false_or]

theorem State.invalidate_eq (s : State) (ch : Fin 18) : s.invalidate ch = s.invalidated [ch] := by
  unfold State.invalidate State.indicatorsFalse
  rw [State.foldl_setIndicator]
  refine congrArg₂ (fun x y => ({ s with records := x, switches := y } : State)) ?_ ?_
  · refine Vector.ext fun r hr => ?_
    simp only [State.modRecord, Vector.getElem_ofFn, Fin.getElem_fin, Vector.getElem_set, List.mem_singleton,
      exists_eq_left]
    by_cases h : (channelSource ch).val = r
    · have hf : channelSource ch = ⟨r, hr⟩ := Fin.ext h
      simp only [hf, if_true]
    · have hf : channelSource ch ≠ ⟨r, hr⟩ := fun e => h (congrArg Fin.val e)
      simp only [h, hf, if_false]
  · refine Vector.ext fun i hi => ?_
    simp [State.switchesOn]

theorem State.foldl_invalidate (l : List (Fin 18)) (s : State) : l.foldl State.invalidate s = s.invalidated l := by
  induction l generalizing s with
  | nil => exact s.invalidated_nil.symm
  | cons ch l ih => rw [List.foldl_cons, ih, State.invalidate_eq, State.invalidated_append, List.singleton_append]

/-! ### The Scan Unit's pending loads (R97, R100, R105, R108) -/

/-- The Scan Unit with its pending loads in force. -/
def ScanUnit.settled (u : ScanUnit) : ScanUnit :=
  { u with
    list := u.pendingList.getD u.list
    stepIndex := if u.pendingList.isSome then 0 else u.stepIndex
    pendingList := none
    channels := match u.pendingChannel with
      | none => u.channels
      | some (ch, c) => u.channels.set ch c
    pendingChannel := none }

/-- The channels whose records the pending loads invalidate (R97, R100). -/
def ScanUnit.gone (u : ScanUnit) : List (Fin 18) :=
  (match u.pendingList with
    | none => []
    | some l => (List.finRange 18).filter fun ch => !(listChannels l).contains ch) ++
    (u.pendingChannel.map Prod.fst).toList

theorem ScanUnit.mem_gone (u : ScanUnit) (ch : Fin 18) : ch ∈ u.gone ↔
    (u.pendingList.isSome ∧ ch ∉ listChannels (u.pendingList.getD u.list)) ∨ u.pendingChannel.map Prod.fst = some ch := by
  unfold ScanUnit.gone
  cases u.pendingList <;> simp

section settled
variable {u : ScanUnit} {l : List ScanStep} {ch : Fin 18} {c : ChannelConfig}

theorem ScanUnit.settled_none (hl : u.pendingList = none) (hc : u.pendingChannel = none) : u.settled = u := by
  cases u
  subst hl hc
  rfl

theorem ScanUnit.settled_channel (hl : u.pendingList = none) (hc : u.pendingChannel = some (ch, c)) :
    u.settled = { u with channels := u.channels.set ch c, pendingChannel := none } := by
  cases u
  subst hl hc
  rfl

theorem ScanUnit.settled_list (hl : u.pendingList = some l) (hc : u.pendingChannel = none) :
    u.settled = { u with list := l, stepIndex := 0, pendingList := none } := by
  cases u
  subst hl hc
  rfl

theorem ScanUnit.settled_both (hl : u.pendingList = some l) (hc : u.pendingChannel = some (ch, c)) :
    u.settled =
      { u with
        list := l, stepIndex := 0, pendingList := none, channels := u.channels.set ch c, pendingChannel := none } := by
  cases u
  subst hl hc
  rfl

end settled

theorem State.applyChannel_eq (s : State) (ch : Fin 18) (c : ChannelConfig) : s.applyChannel ch c =
    (s.modScan fun u => { u with channels := u.channels.set ch c, pendingChannel := none }).invalidated [ch] :=
  State.invalidate_eq _ _

theorem State.applyList_eq (s : State) (l : List ScanStep) : s.applyList l =
    (s.modScan fun u => { u with list := l, stepIndex := 0, pendingList := none }).invalidated
      ((List.finRange 18).filter fun ch => !(listChannels l).contains ch) :=
  State.foldl_invalidate _ _

/-- The loads in force, with the channels whose records they invalidate (R97, R100, R105, R108). -/
theorem State.applyScanLoads_eq (s : State) :
    s.applyScanLoads = (s.modScan ScanUnit.settled).invalidated s.scan.gone := by
  unfold State.applyScanLoads ScanUnit.gone State.modScan
  cases hl : s.scan.pendingList with
  | none =>
    dsimp only
    cases hc : s.scan.pendingChannel with
    | none =>
      rw [ScanUnit.settled_none hl hc]
      exact s.invalidated_nil.symm
    | some x =>
      rw [ScanUnit.settled_channel hl hc]
      exact s.applyChannel_eq ..
  | some l =>
    have pending : (s.applyList l).scan.pendingChannel = s.scan.pendingChannel := by
      rw [State.applyList_eq]
      rfl
    dsimp only
    rw [pending]
    cases hc : s.scan.pendingChannel with
    | none =>
      rw [ScanUnit.settled_list hl hc, Option.map_none, Option.toList_none, List.append_nil]
      exact s.applyList_eq l
    | some x =>
      rw [ScanUnit.settled_both hl hc, ← State.invalidated_append]
      refine (State.applyChannel_eq ..).trans ?_
      rw [State.applyList_eq]
      rfl

/-! ### The pending loads of the entries (R16 to R18) -/

/-- What an application moment makes of entry `n` (R16 to R18). -/
def State.dealt (s : State) (n : Fin 32) : Entry :=
  match s.entries[n].pendingLoad with
  | none => s.entries[n]
  | some c =>
    if s.entries[n].state.active then { s.entries[n] with pendingLoad := none }
    else { Entry.default with config := c, state := s.stateAfterLoad n c }

/-- Entry `n` has a load that places it LOCKED with switch `i` in its mask (R17). -/
def State.loadHolds (s : State) (n : Fin 32) (i : Fin 8) : Bool :=
  match s.entries[n].pendingLoad with
  | none => false
  | some c => !s.entries[n].state.active && s.stateAfterLoad n c == .locked && c.mask.getLsbD i.val

/-- The event of entry `n`'s load at an application moment, on the queue of `u` (R17, R18). -/
def State.loadEvent (s u : State) (n : Fin 32) : State :=
  match s.entries[n].pendingLoad with
  | none => u
  | some _ =>
    if s.entries[n].state.active then u.post .loadAbandoned (some n.val) (s.entries[n].state.code.zeroExtend 16) 1
    else u.post .loadDone (some n.val) 0 0

/-- One entry is dealt with: its own place, the switches its holder joins, and its event (R16). -/
theorem State.dealLoad_eq (s : State) (n : Fin 32) : s.dealLoad n =
    { s with
      entries := s.entries.set n (s.dealt n)
      switches := Vector.ofFn fun i => if s.loadHolds n i then s.switches[i].join (.e n) else s.switches[i]
      queue := (s.loadEvent s n).queue } := by
  unfold State.dealLoad State.dealt State.loadHolds State.loadEvent
  cases s.entries[n].pendingLoad with
  | none => simp
  | some c =>
    dsimp only
    cases s.entries[n].state.active with
    | true => simp [State.abandonLoad, State.post]
    | false =>
      rw [if_neg (by simp), if_neg (by simp), if_neg (by simp), State.applyLoad_eq]
      by_cases hx : s.stateAfterLoad n c = .locked
      · rw [if_pos hx]
        simp [State.post, State.joinMask, State.mapSwitches, State.modEntry, hx]
      · rw [if_neg hx]
        simp [State.post, State.modEntry, hx]

/-- What an application moment makes of an entry depends on the entry and on the slots alone. -/
theorem State.dealt_congr {s u : State} {n : Fin 32} (he : u.entries[n] = s.entries[n]) (hf : u.fault = s.fault) :
    u.dealt n = s.dealt n ∧ u.loadHolds n = s.loadHolds n ∧ ∀ v, u.loadEvent v n = s.loadEvent v n := by
  have after (c : EntryConfig) : u.stateAfterLoad n c = s.stateAfterLoad n c := by
    unfold State.stateAfterLoad
    rw [hf]
  refine ⟨?_, funext fun i => ?_, fun v => ?_⟩
  · unfold State.dealt
    simp only [he, after]
  · unfold State.loadHolds
    simp only [he, after]
  · unfold State.loadEvent
    rw [he]

theorem State.loadEvent_timestamp (s u : State) (n : Fin 32) : (s.loadEvent u n).timestamp = u.timestamp := by
  unfold State.loadEvent
  split
  · rfl
  · split <;> rfl

theorem State.loadEvent_queue (s : State) (n : Fin 32) {u v : State} (hq : u.queue = v.queue)
    (ht : u.timestamp = v.timestamp) : (s.loadEvent u n).queue = (s.loadEvent v n).queue := by
  unfold State.loadEvent
  split
  · exact hq
  · split <;> simp [hq, ht]

/-- Queues that begin alike take the same events. -/
theorem State.foldl_loadEvent_queue (s : State) (l : List (Fin 32)) {u v : State} (hq : u.queue = v.queue)
    (ht : u.timestamp = v.timestamp) : (l.foldl s.loadEvent u).queue = (l.foldl s.loadEvent v).queue := by
  induction l generalizing u v with
  | nil => exact hq
  | cons n l ih =>
    exact ih (s.loadEvent_queue n hq ht) (by rw [s.loadEvent_timestamp, s.loadEvent_timestamp, ht])

/-- A list of entries dealt with in turn: no entry's part depends on another's (R16). -/
theorem State.foldl_dealLoad (s : State) {l : List (Fin 32)} (hl : l.Nodup) {u : State}
    (he : ∀ n ∈ l, u.entries[n] = s.entries[n]) (hf : u.fault = s.fault) : l.foldl State.dealLoad u =
      { u with
        entries := Vector.ofFn fun n => if n ∈ l then s.dealt n else u.entries[n]
        switches := Vector.ofFn fun i =>
          l.foldl (fun w n => if s.loadHolds n i then w.join (.e n) else w) u.switches[i]
        queue := (l.foldl s.loadEvent u).queue } := by
  induction l generalizing u with
  | nil => simp
  | cons a l ih =>
    obtain ⟨ha, hl⟩ := List.nodup_cons.1 hl
    obtain ⟨hd, hh, hev⟩ := State.dealt_congr (he a (List.mem_cons_self ..)) hf
    have one : u.dealLoad a =
        { u with
          entries := u.entries.set a (s.dealt a)
          switches := Vector.ofFn fun i => if s.loadHolds a i then u.switches[i].join (.e a) else u.switches[i]
          queue := (s.loadEvent u a).queue } := by
      rw [u.dealLoad_eq, hd, hh, hev]
    have others (n : Fin 32) (hn : n ≠ a) : (u.dealLoad a).entries[n] = u.entries[n] := by
      rw [one]
      exact (getElem_set_fin ..).trans (if_neg hn.symm)
    have self : (u.dealLoad a).entries[a] = s.dealt a := by
      rw [one]
      exact (getElem_set_fin ..).trans (if_pos rfl)
    rw [List.foldl_cons, ih hl (fun n hn => ?_) (by rw [one]; exact hf)]
    · have entries : (Vector.ofFn fun n => if n ∈ l then s.dealt n else (u.dealLoad a).entries[n]) =
          Vector.ofFn fun n => if n ∈ a :: l then s.dealt n else u.entries[n] := by
        refine congrArg Vector.ofFn (funext fun n => ?_)
        by_cases hn : n = a
        · rw [hn, if_neg ha, self, if_pos (List.mem_cons_self ..)]
        · simp only [others n hn, List.mem_cons, hn, false_or]
      have switches (i : Fin 8) : (u.dealLoad a).switches[i] =
          if s.loadHolds a i then u.switches[i].join (.e a) else u.switches[i] := by
        rw [one]
        simp
      have queue : (l.foldl s.loadEvent (u.dealLoad a)).queue = (l.foldl s.loadEvent (s.loadEvent u a)).queue := by
        refine s.foldl_loadEvent_queue l (by rw [one]) ?_
        rw [one, s.loadEvent_timestamp]
      simp only [entries, switches, queue, List.foldl_cons]
      rw [one]
    · rw [others n fun e => ha (e ▸ hn)]
      exact he n (List.mem_cons_of_mem _ hn)

/-! ### The derived channels at a frame start (R121) -/

/-- The record of a derived channel once its written configuration is in force: one that changes invalidates it (R121). -/
def State.recordInForce (s : State) (d : Fin 4) : MeasRecord :=
  if s.derivedWritten[d].checked = s.derivedInForce[d] then s.records[derivedSource d]
  else s.records[derivedSource d].invalidated

/-- One derived channel comes into force: its configuration, and its record where that changes (R121). -/
theorem State.derivedIntoForce_eq (s : State) (d : Fin 4) : s.derivedIntoForce d =
    { s with
      derivedInForce := s.derivedInForce.set d s.derivedWritten[d].checked
      records := s.records.set (derivedSource d) (s.recordInForce d) } := by
  unfold State.derivedIntoForce State.recordInForce
  dsimp only
  by_cases h : s.derivedWritten[d].checked = s.derivedInForce[d]
  · rw [if_pos h, if_pos h, h]
    simp
  · rw [if_neg h, if_neg h]
    rfl

theorem derivedSource_inj {d e : Fin 4} (h : derivedSource d = derivedSource e) : d = e := by
  simp only [derivedSource, Fin.ext_iff] at h ⊢
  omega

theorem derivedSource_ne_channelSource (d : Fin 4) (ch : Fin 18) : derivedSource d ≠ channelSource ch := by
  simp only [derivedSource, channelSource, ne_eq, Fin.ext_iff]
  omega

/-- `t` is `s` after the derived channels of a list came into force (R121). -/
structure State.DerivedDone (s t : State) (l : List (Fin 4)) : Prop where
  frame : t = { s with derivedInForce := t.derivedInForce, records := t.records }
  done : ∀ d ∈ l, t.derivedInForce[d] = s.derivedWritten[d].checked ∧ t.records[derivedSource d] = s.recordInForce d
  other : ∀ d, d ∉ l → t.derivedInForce[d] = s.derivedInForce[d] ∧ t.records[derivedSource d] = s.records[derivedSource d]
  channel : ∀ ch, t.records[channelSource ch] = s.records[channelSource ch]

/-- A further derived channel comes into force. -/
theorem State.DerivedDone.next {s t : State} {l : List (Fin 4)} (h : s.DerivedDone t l) {d : Fin 4} (hd : d ∉ l) :
    s.DerivedDone (t.derivedIntoForce d) (d :: l) := by
  obtain ⟨hforce, hrec⟩ := h.other d hd
  have written : t.derivedWritten = s.derivedWritten := by rw [h.frame]
  have own : t.recordInForce d = s.recordInForce d := by
    unfold State.recordInForce
    rw [written, hforce, hrec]
  have away (e : Fin 4) (he : e ≠ d) : (t.derivedIntoForce d).derivedInForce[e] = t.derivedInForce[e] ∧
      (t.derivedIntoForce d).records[derivedSource e] = t.records[derivedSource e] := by
    rw [t.derivedIntoForce_eq]
    exact ⟨(getElem_set_fin ..).trans (if_neg he.symm),
      (getElem_set_fin ..).trans (if_neg fun hs => he (derivedSource_inj hs).symm)⟩
  refine ⟨?_, fun e he => ?_, fun e he => ?_, fun ch => ?_⟩
  · rw [t.derivedIntoForce_eq, h.frame]
  · by_cases hed : e = d
    · rw [hed, t.derivedIntoForce_eq, own, written]
      exact ⟨(getElem_set_fin ..).trans (if_pos rfl), (getElem_set_fin ..).trans (if_pos rfl)⟩
    · rw [(away e hed).1, (away e hed).2]
      exact h.done e ((List.mem_cons.1 he).resolve_left hed)
  · obtain ⟨hed, hel⟩ := not_or.1 (List.mem_cons.not.1 he)
    rw [(away e hed).1, (away e hed).2]
    exact h.other e hel
  · rw [← h.channel ch, t.derivedIntoForce_eq]
    exact (getElem_set_fin ..).trans (if_neg (derivedSource_ne_channelSource d ch))

theorem State.derivedFrameStart_done (s : State) : s.DerivedDone s.derivedFrameStart [3, 2, 1, 0] := by
  have start : s.DerivedDone s [] := ⟨rfl, fun _ h => absurd h List.not_mem_nil, fun _ _ => ⟨rfl, rfl⟩, fun _ => rfl⟩
  have first := start.next (d := 0) (by decide)
  have second := first.next (d := 1) (by decide)
  have third := second.next (d := 2) (by decide)
  unfold State.derivedFrameStart
  rw [show List.finRange 4 = [0, 1, 2, 3] by decide, List.foldl_cons, List.foldl_cons, List.foldl_cons,
    List.foldl_cons, List.foldl_nil]
  exact third.next (d := 3) (by decide)

/-! ### The application moments (R16, R105, R108) -/

/-- Every pending load dealt with, in one update of the state (R16, R97, R100). -/
def State.loadsDealt (s : State) : State :=
  { (s.modScan ScanUnit.settled).invalidated s.scan.gone with
    entries := Vector.ofFn s.dealt
    switches := Vector.ofFn fun i =>
      (List.finRange 32).foldl (fun w n => if s.loadHolds n i then w.join (.e n) else w)
        ((s.modScan ScanUnit.settled).invalidated s.scan.gone).switches[i]
    queue := ((List.finRange 32).foldl s.loadEvent s).queue }

/-- The Limit Table's part reads nothing of the Scan Unit (R16). -/
theorem State.dealLoads_of_scan (s : State) (f : ScanUnit → ScanUnit) :
    (s.applyScanLoads.modScan f).dealLoads = s.loadsDealt.modScan f := by
  rw [State.applyScanLoads_eq]
  unfold State.dealLoads
  generalize hu : ((s.modScan ScanUnit.settled).invalidated s.scan.gone).modScan f = u
  rw [s.foldl_dealLoad (u := u) (List.nodup_finRange 32) (fun n _ => by rw [← hu]; rfl) (by rw [← hu]; rfl),
    s.foldl_loadEvent_queue (v := s) _ (by rw [← hu]; rfl) (by rw [← hu]; rfl), ← hu]
  simp only [List.mem_finRange, if_true]
  rfl

theorem State.becomeQuiet_eq (s : State) : s.becomeQuiet = s.loadsDealt := by
  have unmoved (t : State) : t.modScan id = t := rfl
  rw [← unmoved s.loadsDealt, ← s.dealLoads_of_scan, unmoved]
  rfl

theorem State.frameStart_eq (s : State) : s.frameStart =
    (s.loadsDealt.modScan fun u => { u with frameNumber := u.frameNumber + 1 }).derivedFrameStart.modScan
      fun u => { u with scanning := true, stepIndex := 0, sampled := none } := by
  rw [← State.dealLoads_of_scan]
  rfl

/-! ### What an application moment leaves, part by part -/

theorem State.loadsDealt_entries (s : State) (n : Fin 32) : s.loadsDealt.entries[n] = s.dealt n := by
  simp [State.loadsDealt]

theorem State.loadsDealt_switches (s : State) (i : Fin 8) : s.loadsDealt.switches[i] =
    (List.finRange 32).foldl (fun w n => if s.loadHolds n i then w.join (.e n) else w)
      (if ∃ ch ∈ s.scan.gone, s.switches[i].config.channelOf = some ch then s.switches[i].undischarged
        else s.switches[i]) := by
  simp only [State.loadsDealt, State.invalidated, State.modScan, Fin.getElem_fin, Vector.getElem_ofFn, Fin.eta]
  rfl

theorem channelSource_inj {c d : Fin 18} : channelSource c = channelSource d ↔ c = d := by
  simp [channelSource, Fin.ext_iff]

theorem State.loadsDealt_channel (s : State) (ch : Fin 18) : s.loadsDealt.records[channelSource ch] =
    if ch ∈ s.scan.gone then s.records[channelSource ch].invalidated else s.records[channelSource ch] := by
  simp only [State.loadsDealt, State.invalidated, State.modScan, Fin.getElem_fin, Vector.getElem_ofFn, Fin.eta,
    channelSource_inj, exists_eq_right]

theorem State.loadsDealt_derived (s : State) (d : Fin 4) :
    s.loadsDealt.records[derivedSource d] = s.records[derivedSource d] := by
  have none : ¬∃ ch ∈ s.scan.gone, channelSource ch = derivedSource d := fun ⟨ch, _, h⟩ =>
    derivedSource_ne_channelSource d ch h.symm
  simp only [State.loadsDealt, State.invalidated, State.modScan, Fin.getElem_fin, Vector.getElem_ofFn, Fin.eta,
    none, if_false]

/-- A load places its entry LOCKED where its record is an enabled LOCK and a slot names the entry (R17). -/
theorem State.stateAfterLoad_of_slots (s : State) (n : Fin 32) (c : EntryConfig) : s.stateAfterLoad n c =
    if c.enabled = 0 then .off
    else if c.enabled ≠ 0 ∧ c.tier = 2 ∧ ∃ k : Fin 4, s.fault.slots[k].names = some n then .locked else .idle := by
  simp only [State.stateAfterLoad_eq, s.fault.slotNaming_isSome]
  by_cases he : c.enabled = 0
  · rw [if_pos he, if_pos he]
  · simp only [ne_eq, he, not_false_eq_true, true_and]

theorem State.stateAfterLoad_locked_iff (s : State) (n : Fin 32) (c : EntryConfig) :
    s.stateAfterLoad n c = .locked ↔
      c.enabled ≠ 0 ∧ c.tier = 2 ∧ ∃ k : Fin 4, s.fault.slots[k].names = some n := by
  rw [State.stateAfterLoad_of_slots]
  split
  · simp_all
  · split <;> simp_all

/-- A load holds a switch where it is applied, places its entry LOCKED, and names the switch (R17). -/
theorem State.loadHolds_iff (s : State) (n : Fin 32) (i : Fin 8) : s.loadHolds n i = true ↔
    ∃ c, (if s.entries[n].state.active then none else s.entries[n].pendingLoad) = some c ∧
      (c.enabled ≠ 0 ∧ c.tier = 2 ∧ ∃ k : Fin 4, s.fault.slots[k].names = some n) ∧ c.mask.getLsbD i.val = true := by
  unfold State.loadHolds
  cases s.entries[n].pendingLoad with
  | none => simp
  | some c => cases s.entries[n].state.active <;> simp [State.stateAfterLoad_locked_iff]

theorem State.loadsDealt_queue (s : State) :
    s.loadsDealt.queue = ((List.finRange 32).foldl s.loadEvent s).queue := rfl

theorem State.loadsDealt_derivedInForce (s : State) : s.loadsDealt.derivedInForce = s.derivedInForce := by
  simp only [State.loadsDealt, State.invalidated, State.modScan]

theorem State.loadsDealt_derivedWritten (s : State) : s.loadsDealt.derivedWritten = s.derivedWritten := by
  simp only [State.loadsDealt, State.invalidated, State.modScan]

/-- What an application moment moves (R16, R105, R108). -/
theorem State.loadsDealt_frame (s : State) : s.loadsDealt = { s with
    scan := s.scan.settled, entries := s.loadsDealt.entries, records := s.loadsDealt.records
    queue := s.loadsDealt.queue, switches := s.loadsDealt.switches } := rfl

/-- A frame start leaves, beside the Scan Unit and the derived channels, what the loads leave (R105). -/
theorem State.frameStart_parts (s : State) :
    s.frameStart = { s with
      scan :=
        { s.scan.settled with
          frameNumber := s.scan.frameNumber + 1, scanning := true, stepIndex := 0, sampled := none }
      entries := s.loadsDealt.entries, records := s.frameStart.records, derivedInForce := s.frameStart.derivedInForce
      queue := s.loadsDealt.queue, switches := s.loadsDealt.switches } ∧
    (∀ ch, s.frameStart.records[channelSource ch] = s.loadsDealt.records[channelSource ch]) ∧
    ∀ d : Fin 4, s.frameStart.derivedInForce[d] = s.derivedWritten[d].checked ∧
      s.frameStart.records[derivedSource d] = s.recordInForce d := by
  have done := (s.loadsDealt.modScan fun u => { u with frameNumber := u.frameNumber + 1 }).derivedFrameStart_done
  rw [State.frameStart_eq]
  generalize State.derivedFrameStart _ = v at done
  refine ⟨?_, done.channel, fun d => ?_⟩
  · obtain ⟨x, y, rfl⟩ : ∃ x y, v = { s.loadsDealt.modScan fun u => { u with frameNumber := u.frameNumber + 1 } with
        derivedInForce := x, records := y } := ⟨_, _, done.frame⟩
    clear done
    have frame := s.loadsDealt_frame
    generalize s.loadsDealt = u at frame
    generalize u.entries = e, u.records = r, u.queue = q, u.switches = w at frame
    subst frame
    rfl
  · obtain ⟨h1, h2⟩ := done.done d (by revert d; decide)
    unfold State.recordInForce at h2 ⊢
    simp only [State.modScan_derivedWritten, State.modScan_derivedInForce, State.modScan_records,
      State.loadsDealt_derivedWritten, State.loadsDealt_derivedInForce, State.loadsDealt_derived] at h1 h2
    exact ⟨h1, h2⟩

/-- Settles O18: an application moment in one update, and at a frame start the derived channels after it. -/
theorem pendingLoadsDealtWith : Obligations.PendingLoadsDealtWith := by
  intro s t starts ht list settled gone locks code inForce applied
  have hgone (ch : Fin 18) : ch ∈ s.scan.gone ↔ gone ch := s.scan.mem_gone ch
  have hforce (w : DerivedWritten) : w.checked = inForce w := w.checked_eq
  have hcode (x : EntryState) : x.code.zeroExtend 16 = code x := by cases x <;> rfl
  obtain ⟨hframe, hentries, hqueue, hswitches, hchannel⟩ : t = { s with
      scan := t.scan, entries := t.entries, records := t.records, derivedInForce := t.derivedInForce
      queue := t.queue, switches := t.switches } ∧ t.entries = s.loadsDealt.entries ∧ t.queue = s.loadsDealt.queue ∧
      t.switches = s.loadsDealt.switches ∧
      ∀ ch, t.records[channelSource ch] = s.loadsDealt.records[channelSource ch] := by
    cases starts with
    | false =>
      rw [ht, if_neg (by simp), State.becomeQuiet_eq]
      exact ⟨rfl, rfl, rfl, rfl, fun _ => rfl⟩
    | true =>
      obtain ⟨h, hch, _⟩ := s.frameStart_parts
      rw [ht, if_pos rfl]
      refine ⟨?_, ?_, ?_, ?_, hch⟩ <;> rw [h]
  refine ⟨hframe, ?_, fun n => ?_, ?_, fun i => ?_, fun ch => ?_, fun hs d => ?_, fun hs => ?_⟩
  · cases starts with
    | false =>
      rw [ht, if_neg (by simp), State.becomeQuiet_eq]
      rfl
    | true =>
      rw [ht, if_pos rfl, s.frameStart_parts.1]
      rfl
  · rw [hentries, State.loadsDealt_entries, State.dealt]
    have hafter (c : EntryConfig) : s.stateAfterLoad n c =
        if c.enabled = 0 then .off else if locks n c then .locked else .idle := s.stateAfterLoad_of_slots n c
    cases s.entries[n].pendingLoad with
    | none => rfl
    | some c =>
      dsimp only
      split
      · rfl
      · rw [hafter]
        rfl
  · rw [hqueue, State.loadsDealt_queue]
    refine congrArg State.queue (congrArg (fun f => (List.finRange 32).foldl f s) (funext fun u => funext fun n => ?_))
    unfold State.loadEvent
    cases s.entries[n].pendingLoad with
    | none => rfl
    | some c =>
      dsimp only
      rw [hcode]
  · rw [hswitches, State.loadsDealt_switches]
    have hjoin (n : Fin 32) : s.loadHolds n i = true ↔
        ∃ c, applied n = some c ∧ locks n c ∧ c.mask.getLsbD i.val = true := s.loadHolds_iff n i
    have hwatch : (∃ ch ∈ s.scan.gone, s.switches[i].config.channelOf = some ch) ↔
        ∃ ch : Fin 18, s.switches[i].config.goodChannel.toNat = ch.val ∧ gone ch := by
      simp only [hgone, SwitchConfig.channelOf, numberBelow_eq_some, and_comm]
    simp only [hjoin, hwatch]
    rfl
  · rw [hchannel, State.loadsDealt_channel]
    by_cases h : gone ch
    · rw [if_pos h, if_pos ((hgone ch).2 h)]
      rfl
    · rw [if_neg h, if_neg fun g => h ((hgone ch).1 g)]
  · obtain ⟨_, _, hd⟩ := s.frameStart_parts
    rw [hs, if_pos rfl] at ht
    rw [ht, (hd d).1, (hd d).2, hforce]
    refine ⟨rfl, ?_⟩
    unfold State.recordInForce
    rw [hforce]
    by_cases h : inForce s.derivedWritten[d] = s.derivedInForce[d]
    · rw [if_pos h, if_pos h]
    · rw [if_neg h, if_neg h]
      rfl
  · rw [hs, if_neg (by simp), State.becomeQuiet_eq] at ht
    rw [ht]
    exact ⟨s.loadsDealt_derivedInForce, s.loadsDealt_derived⟩

end Sys2Proof.Machine
end

section
/-! SUPPORT. Which steps reach the entries, and that each of those keeps the entries legal (R21, R22, R24). -/

namespace Sys2Proof.Machine

/-! ### Steps that leave the entries alone -/

/-- The steps that may move an entry: the commands and events of the Limit Table and the Qualification Engine, what starts a
frame or makes the Scan Unit quiet, the completion of a step, and the resets. -/
def reachesEntries (c : Instr) : Bool :=
  match c with
  | .scanNow | .loadEntry | .release | .clearLock _ | .softReset | .scanModeWrite _ | .powerOnReset | .pinReset
  | .syncEdge | .frameTimerExpiry | .scanStepComplete | .dwellExpiry _ | .recoveryExpiry _ | .eraseComplete
  | .timeBaseTick => true
  | _ => false

theorem takeCommand_entries {s : State} {body : State → Reply} (h : (body s).state.entries = s.entries) :
    (takeCommand body s).entries = s.entries := by
  unfold takeCommand
  split
  · exact h
  · rfl

theorem takeWrite_entries {s : State} {a : Byte} {f : State → State} (h : (f s).entries = s.entries) :
    (takeWrite a f s).entries = s.entries := by
  unfold takeWrite
  split
  · exact h
  · rfl

theorem awake_entries {s : State} {f : State → State} (h : (f s).entries = s.entries) :
    (awake f s).entries = s.entries := by
  unfold awake
  split
  · rfl
  · exact h

/-- The restore settles a slot without reaching an entry (R148). -/
theorem State.settleSlot_entries (s : State) (k : Fin 4) : (s.settleSlot k).entries = s.entries :=
  (s.settleSlot_aside k).entries

theorem restoreSlotSettled_entries (s : State) : (restoreSlotSettled s).entries = s.entries := by
  unfold restoreSlotSettled
  split
  · rfl
  · split
    · exact s.settleSlot_entries _
    · rfl

theorem restoreComplete_entries (s : State) : (restoreComplete s).entries = s.entries := by
  have settled (l : List (Fin 4)) (t : State) : (l.foldl State.settleSlot t).entries = t.entries := by
    induction l generalizing t with
    | nil => rfl
    | cons k l ih => exact (ih _).trans (t.settleSlot_entries k)
  unfold restoreComplete
  split
  · rfl
  · exact settled _ s

theorem programComplete_entries (s : State) : (programComplete s).entries = s.entries := by
  unfold programComplete
  split
  · rfl
  · split <;> rfl

theorem resetEnd_entries (addr1 addr0 tripLow : Bool) (s : State) : (resetEnd addr1 addr0 tripLow s).entries = s.entries := by
  unfold resetEnd
  split <;> rfl

/-- Every other step leaves the entries as they stand. -/
theorem exec_entries {c : Instr} {s t : State} (hc : reachesEntries c = false) (h : exec c s = .next t) :
    t.entries = s.entries := by
  obtain ⟨hpointer, haddress, hserve, hfield, htimeout⟩ := portStep_aside s
  cases c <;> cases hc <;> cases h
  case loadScanList => exact takeCommand_entries (loadScanListBody_aside s).entries
  case loadChannel => exact takeCommand_entries (loadChannelBody_aside s).entries
  case clearMinmax =>
    refine takeCommand_entries ?_
    unfold clearMinmaxBody
    repeat' split
    all_goals rfl
  case loadSwitch => exact takeCommand_entries (loadSwitchBody_aside s).entries
  case restartSwitch =>
    refine takeCommand_entries ?_
    unfold restartSwitchBody
    repeat' split
    all_goals rfl
  case loadSequence =>
    refine takeCommand_entries ?_
    unfold loadSequenceBody
    repeat' split
    all_goals rfl
  case powerUp => exact takeCommand_entries (powerUpBody_aside s).entries
  case powerDown => exact takeCommand_entries (powerDownBody_aside s).entries
  case dropCaptures =>
    refine takeCommand_entries ?_
    unfold dropCapturesBody
    split <;> rfl
  case popEvent =>
    refine takeCommand_entries ?_
    unfold popEventBody
    split <;> rfl
  case clearLoss => exact takeCommand_entries rfl
  case badCommand code =>
    split
    · rfl
    · exact takeCommand_entries rfl
  case alertLevelWrite v =>
    refine takeWrite_entries ?_
    unfold writeAlertLevel
    split <;> rfl
  case framePeriodLowWrite v =>
    refine takeWrite_entries ?_
    unfold writePeriodLow
    split <;> rfl
  case framePeriodHighWrite v =>
    refine takeWrite_entries ?_
    unfold writePeriodHigh
    dsimp only
    repeat' split
    all_goals rfl
  case registerWrite v => exact awake_entries (registerWrite_aside v s).entries
  case pointerWrite v => exact awake_entries (hpointer v).entries
  case addressByte v => exact awake_entries (haddress v).entries
  case fieldSnapshot service ack => exact awake_entries (hfield service ack).entries
  case dataByteServed service ack => exact awake_entries (hserve service ack).entries
  case transferEnd => exact awake_entries rfl
  case transferTimeout => exact awake_entries htimeout.entries
  case resetEnd a b low => exact resetEnd_entries a b low s
  case restoreSlotSettled => exact awake_entries (restoreSlotSettled_entries s)
  case restoreComplete => exact awake_entries (restoreComplete_entries s)
  case tripFilterAssert low => exact awake_entries (tripAssert_aside low s).entries
  case tripFilterRelease => exact awake_entries (tripRelease_aside s).entries
  case scanStepSample a b c =>
    refine awake_entries ?_
    unfold scanStepSample
    split <;> rfl
  case rampTimerExpiry i => exact awake_entries (rampExpiry_aside i s).entries
  case stepLimitExpiry => exact awake_entries (stepLimitExpiry_switching s).aside.entries
  case dischargeTimerExpiry => exact awake_entries (dischargeExpiry_switching s).aside.entries
  case settleTimerExpiry => exact awake_entries (settleExpiry_switching s).aside.entries
  case programPhaseEnd => exact awake_entries rfl
  case programComplete => exact awake_entries (programComplete_entries s)
  case erasePhaseEnd => exact awake_entries rfl
  case cleanupEraseComplete => exact awake_entries rfl

/-! ### Steps that reach them -/

/-- The passage from `s` to `t` keeps the entries legal. -/
def EntriesKept (s t : State) : Prop := s.entriesLegal → t.entriesLegal

theorem EntriesKept.refl (s : State) : EntriesKept s s := id

theorem EntriesKept.trans {s t u : State} (a : EntriesKept s t) (b : EntriesKept t u) : EntriesKept s u := b ∘ a

/-- Entries that stand as before stay legal. -/
theorem EntriesKept.of_entries {s t : State} (h : t.entries = s.entries) : EntriesKept s t := by
  intro hl n
  rw [h]
  exact hl n

/-- Entries that are all as after a reset are legal. -/
theorem State.entriesLegal_of_defaults {s : State} (h : s.entries = Vector.replicate 32 Entry.default) :
    s.entriesLegal := by
  intro n
  rw [h]
  simpa using Entry.default_legal

theorem Keeps.entriesKept {s t : State} (h : Keeps s t) : EntriesKept s t := h.entries

theorem takeCommand_entriesKept {s : State} {body : State → Reply} (h : EntriesKept s (body s).state) :
    EntriesKept s (takeCommand body s) := by
  unfold takeCommand
  split
  · exact h.trans (.of_entries rfl)
  · exact .refl s

theorem takeWrite_entriesKept {s : State} {a : Byte} {f : State → State} (h : EntriesKept s (f s)) :
    EntriesKept s (takeWrite a f s) := by
  unfold takeWrite
  split
  · exact h.trans (.of_entries rfl)
  · exact .refl s

theorem awake_entriesKept {s : State} {f : State → State} (h : EntriesKept s (f s)) : EntriesKept s (awake f s) := by
  unfold awake
  split
  · exact .refl s
  · exact h

/-- LOAD ENTRY is refused, applied to an entry that is not active, or left pending at the entry (R12 to R17). -/
theorem loadEntryBody_entriesKept (s : State) : EntriesKept s (loadEntryBody s).state := by
  unfold loadEntryBody
  split
  · exact .refl s
  split
  · exact .refl s
  rename_i n _
  split
  · exact .refl s
  split
  · exact .refl s
  rename_i inactive
  split
  · exact .refl s
  split
  · exact .refl s
  split
  · exact .refl s
  split
  · exact (State.applyLoad_keeps (by simpa using inactive) _).entriesKept
  · have pending : Keeps s (s.modEntry n fun e => { e with pendingLoad := some s.entryStaging }) :=
      Keeps.entryOnly id (.inr ⟨rfl, rfl⟩)
    exact pending.entriesKept

theorem releaseBody_entriesKept (s : State) : EntriesKept s (releaseBody s).state := by
  unfold releaseBody
  split
  · exact .refl s
  split
  · exact .refl s
  split
  case h_7 hs => exact (State.recover_keeps (by rw [hs]; rfl) _).entriesKept
  all_goals exact .refl s

/-- The immediate clear of a volatile lock leaves the entries as a return to IDLE does (R47). -/
theorem State.clearVolatile_entries (s : State) (n : Fin 32) (cause : RecoverCause) :
    (s.clearVolatile n).entries = (s.recover n cause).entries := rfl

theorem clearLockBody_entriesKept (service : Bool) (s : State) : EntriesKept s (clearLockBody service s).state := by
  unfold clearLockBody
  split
  · exact .refl s
  split
  · exact .refl s
  rename_i n _
  split
  · exact .refl s
  split
  · split <;> exact .of_entries rfl
  · split
    · rename_i hs
      have recovered : Keeps s (s.recover n .service) := State.recover_keeps (by rw [hs]; rfl) _
      exact recovered.entriesKept.trans (.of_entries (s.clearVolatile_entries n .service))
    · exact .refl s

theorem softResetBody_entriesKept (s : State) : EntriesKept s (softResetBody s).state := by
  unfold softResetBody
  split
  · exact .refl s
  split
  case h_5 => exact fun _ => State.entriesLegal_of_defaults s.softReset_fault.2.2
  all_goals exact .refl s

theorem scanNowBody_entriesKept (s : State) : EntriesKept s (scanNowBody s).state := by
  unfold scanNowBody
  split
  · exact .refl s
  · exact s.trigger_keeps.entriesKept

theorem writeScanMode_entriesKept (v : Byte) (s : State) : EntriesKept s (writeScanMode v s) := by
  unfold writeScanMode
  split
  · exact .refl s
  split
  · exact .refl s
  rename_i m _ _
  cases m with
  | timed => exact .of_entries rfl
  | sync => exact .of_entries rfl
  | stopped =>
    have stopped : EntriesKept s (s.modScan fun u =>
        { u with mode := .stopped, frameTimer := none, pendingTrigger := false }) := .of_entries rfl
    unfold State.setMode
    dsimp only
    split
    · exact stopped
    · exact stopped.trans (State.becomeQuiet_keeps _).entriesKept

theorem syncEdge_entriesKept (s : State) : EntriesKept s (syncEdge s) := by
  unfold syncEdge
  split
  · exact s.trigger_keeps.entriesKept
  · exact .refl s

theorem frameTimerExpiry_entriesKept (s : State) : EntriesKept s (frameTimerExpiry s) := by
  unfold frameTimerExpiry
  split
  · have reload : EntriesKept s (s.modScan ScanUnit.reloadTimer) := .of_entries rfl
    exact reload.trans (State.trigger_keeps _).entriesKept
  · exact .refl s

/-- An erase completion reaches an entry by the return of a LOCKED one alone (R46, R142). -/
theorem State.announceClear_entriesKept (s : State) (k : Fin 4) (n : Fin 32) (engine : Fin 3) (later : Bool) :
    EntriesKept s (s.announceClear k n engine later) := by
  have first : EntriesKept s (if engine = 0 then s.lockCleared n else s) := by
    split
    · exact (s.lockCleared_keeps n).entriesKept
    · exact .refl s
  unfold State.announceClear
  dsimp only
  generalize (if engine = 0 then s.lockCleared n else s) = s1 at *
  have posted : EntriesKept s1 ((if later then s1.send (.store n) else s1.unpin n).postLockCleared k n) := by
    split <;> exact .of_entries rfl
  generalize ((if later then s1.send (.store n) else s1.unpin n).postLockCleared k n) = s2 at *
  refine (first.trans posted).trans ?_
  split
  · exact (s2.lockCleared_keeps n).entriesKept
  · split
    · exact .of_entries rfl
    · exact .refl s2

theorem eraseComplete_entriesKept (s : State) : EntriesKept s (eraseComplete s) := by
  unfold eraseComplete
  split
  · rename_i k _
    split
    · rename_i h _ _
      have emptied : EntriesKept s (((s.modFault fun f => (f.modMedium k fun d => { d with mark := .blank }).setSlot k
          (.empty false)).leaveMask (.k k) h.mask).draw Config.freeOrder 5).2 := .of_entries rfl
      exact (emptied.trans (State.announceClear_entriesKept _ k h.entry _ _)).trans (.of_entries rfl)
    all_goals exact .refl s
  all_goals exact .refl s

theorem Timer.tick_isSome (t : Timer) : t.tick.isSome = t.isSome := by
  simp [Timer.tick]

/-- A millisecond starts and stops no timer (R21). -/
theorem Entry.legal.tick {e : Entry} (h : e.legal) : e.tick.legal := by
  simpa only [Entry.legal, Entry.tick, Timer.tick_isSome] using h

theorem timeBaseTick_entriesKept (s : State) : EntriesKept s (timeBaseTick s) := by
  have taken : EntriesKept s s.receiveAll.takeFailures :=
    (s.receiveAll_keeps.trans (State.takeFailures_keeps _)).entriesKept
  refine taken.trans fun hl n => ?_
  change (s.receiveAll.takeFailures.entries.map Entry.tick)[n].legal
  rw [Fin.getElem_fin, Vector.getElem_map]
  exact (hl n).tick

/-! ### Every step -/

theorem exec_reaching_entriesKept {c : Instr} {s t : State} (hc : reachesEntries c = true) (h : exec c s = .next t) :
    EntriesKept s t := by
  cases c <;> cases hc <;> cases h
  case scanNow => exact takeCommand_entriesKept (scanNowBody_entriesKept s)
  case loadEntry => exact takeCommand_entriesKept (loadEntryBody_entriesKept s)
  case release => exact takeCommand_entriesKept (releaseBody_entriesKept s)
  case clearLock service => exact takeCommand_entriesKept (clearLockBody_entriesKept service s)
  case softReset => exact takeCommand_entriesKept (softResetBody_entriesKept s)
  case scanModeWrite v => exact takeWrite_entriesKept (writeScanMode_entriesKept v s)
  case powerOnReset => exact fun _ => State.entriesLegal_of_defaults rfl
  case pinReset => exact fun _ => State.entriesLegal_of_defaults rfl
  case syncEdge => exact awake_entriesKept (syncEdge_entriesKept s)
  case frameTimerExpiry => exact awake_entriesKept (frameTimerExpiry_entriesKept s)
  case scanStepComplete => exact awake_entriesKept (scanStepComplete_keeps s).entriesKept
  case dwellExpiry n => exact awake_entriesKept (dwellExpiry_keeps s n).entriesKept
  case recoveryExpiry n => exact awake_entriesKept (recoveryExpiry_keeps s n).entriesKept
  case eraseComplete => exact awake_entriesKept (eraseComplete_entriesKept s)
  case timeBaseTick => exact awake_entriesKept (timeBaseTick_entriesKept s)

theorem exec_entriesKept {c : Instr} {s t : State} (h : exec c s = .next t) : EntriesKept s t := by
  cases hc : reachesEntries c with
  | false => exact .of_entries (exec_entries hc h)
  | true => exact exec_reaching_entriesKept hc h

/-- Settles O54: the command at the front reaches no entry, or keeps each legal by the lemma on its step. -/
theorem entriesStayLegal : Obligations.EntriesStayLegal := by
  intro s t hl h
  unfold step at h
  split at h
  · cases h
    exact hl
  · rename_i c rest _
    have popped : EntriesKept s { s with pending := rest } := .of_entries rfl
    exact exec_entriesKept h (popped hl)

end Sys2Proof.Machine
end

section
/-! SUPPORT. RELEASE and CLEAR LOCK: their checks in order, and what each does where it is accepted (R43 to R47, R144,
R145). -/

namespace Sys2Proof.Machine

/-! ### RELEASE (R43) -/

/-- RELEASE of an entry, by the state it stands in (R43). -/
theorem releaseBody_of {s : State} {n : Fin 32} (hr : s.ready = true) (hn : s.port.arg0.toNat = n.val) :
    releaseBody s = match s.entries[n].state with
      | .off | .idle | .pending => s.refuse .notAsserted
      | .asserted | .recovering => s.refuse .notRecovered
      | .locked => s.refuse .entryLockHeld
      | .releasable => ⟨s.returned n 2, .ok, 0⟩ := by
  unfold releaseBody
  rw [numberBelow_some hn, if_neg (by simp [hr])]
  dsimp only
  rw [State.recover_eq]
  cases s.entries[n].state <;> rfl

/-- Settles O31: the checks in their order, then one answer for each state of the entry. -/
theorem releaseResults : Obligations.ReleaseResults := by
  intro s hs
  have taken : exec .release s = .next (releaseBody s).answer :=
    congrArg Host.Outcome.next (takeCommand_taken hs releaseBody)
  rw [taken]
  refine ⟨fun hr => ?_, fun hr ha => ?_, fun n hr hn => ?_⟩
  · simp [releaseBody, hr, State.refuse, Reply.answer]
  · simp [releaseBody, hr, numberBelow_none (n := 32) ha, State.refuse, Reply.answer]
  · rw [releaseBody_of hr hn]
    refine ⟨fun h => ?_, fun h => ?_, fun h => ?_, fun h => ?_⟩
    · rcases h with h | h | h <;> rw [h] <;> rfl
    · rcases h with h | h <;> rw [h] <;> rfl
    · rw [h]
      rfl
    · rw [h]
      rfl

/-! ### CLEAR LOCK (R144, R145) -/

/-- The slot that names an entry, where it is the only one (R139). -/
theorem FaultMemory.slotNaming_of_only {f : FaultMemory} {n : Fin 32} {k : Fin 4} (hk : f.slots[k].names = some n)
    (only : ∀ j : Fin 4, f.slots[j].names = some n → j = k) : f.slotNaming n = some k := by
  cases h : f.slotNaming n with
  | none =>
    have named := (f.slotNaming_isSome n).2 ⟨k, hk⟩
    rw [h] at named
    cases named
  | some j =>
    have hj : f.slots[j].names = some n := by simpa using FaultMemory.findSlot_some h
    rw [only j hj]

/-- No slot is found where none names the entry (R139). -/
theorem FaultMemory.slotNaming_of_none {f : FaultMemory} {n : Fin 32} (h : ∀ k : Fin 4, f.slots[k].names ≠ some n) :
    f.slotNaming n = none := by
  rw [← Option.not_isSome_iff_eq_none, f.slotNaming_isSome]
  rintro ⟨k, hk⟩
  exact h k hk

/-- A VALID slot becomes ERASING; its erase starts at once on an empty work list and waits at the tail of any other (R140,
R145). -/
theorem FaultMemory.queueErase_valid {f : FaultMemory} {k : Fin 4} {h : LockHeader} {b : Option LockBody}
    (hs : f.slots[k] = .valid h b) : f.queueErase k = { f with
      slots := f.slots.set k (.erasing h b)
      work := f.work ++ [{ kind := .erase, slot := k }]
      phase := if f.work = [] then some .mark else f.phase } := by
  unfold FaultMemory.queueErase
  rw [hs]
  dsimp only
  unfold FaultMemory.enqueue
  by_cases hw : f.work = []
  · have started : ((f.setSlot k (.erasing h b)).work.isEmpty) = true := by simp [FaultMemory.setSlot, hw]
    dsimp only
    rw [if_pos started, if_pos hw, FaultMemory.startHead_mark (i := { kind := .erase, slot := k }) (rest := []) ?_ (by simp)]
    · rfl
    · simp [FaultMemory.setSlot, hw]
  · have waits : ¬((f.setSlot k (.erasing h b)).work.isEmpty) = true := by simp [FaultMemory.setSlot, hw]
    dsimp only
    rw [if_neg waits, if_neg hw]
    rfl

/-- The immediate clear of a volatile lock is the unpin of its record and the return of its entry (R47). -/
theorem State.clearVolatile_eq (s : State) (n : Fin 32) : s.clearVolatile n = (s.unpin n).returned n 3 := by
  have order : (s.letGo n).unpin n = (s.unpin n).letGo n := apply_ite (fun t : State => t.unpin n) _ _ _
  rw [State.clearVolatile, order]
  exact (s.unpin n).recover_eq n .service

/-- CLEAR LOCK with the SERVICE line asserted, of an entry that one slot names: a VALID slot is erased, and any other is busy
(R144, R145). -/
theorem clearLockBody_slot {s : State} {n : Fin 32} {k : Fin 4} (hr : s.ready = true) (hn : s.port.arg0.toNat = n.val)
    (hk : s.fault.slots[k].names = some n) (only : ∀ j : Fin 4, s.fault.slots[j].names = some n → j = k) :
    clearLockBody true s =
      if s.fault.slots[k].code = 2 then ⟨s.modFault fun f => f.queueErase k, .accepted, BitVec.ofNat 8 k.val⟩
      else s.refuse .lockBusy (BitVec.ofNat 8 k.val) := by
  unfold clearLockBody
  rw [if_neg (by simp [hr]), numberBelow_some hn]
  dsimp only
  rw [if_neg (by simp), FaultMemory.slotNaming_of_only hk only]
  dsimp only
  generalize s.fault.slots[k] = v
  cases v <;> rfl

/-- CLEAR LOCK with the SERVICE line asserted, of an entry that no slot names (R144, R145). -/
theorem clearLockBody_noSlot {s : State} {n : Fin 32} (hr : s.ready = true) (hn : s.port.arg0.toNat = n.val)
    (h : ∀ k : Fin 4, s.fault.slots[k].names ≠ some n) : clearLockBody true s =
      if s.entries[n].state = .locked then ⟨(s.unpin n).returned n 3, .ok, 0⟩ else s.refuse .noLock := by
  unfold clearLockBody
  rw [if_neg (by simp [hr]), numberBelow_some hn]
  dsimp only
  rw [if_neg (by simp), FaultMemory.slotNaming_of_none h, State.clearVolatile_eq]

/-- Settles O46: the checks in their order, then the slot that names the entry, or a volatile lock. -/
theorem clearLockResults : Obligations.ClearLockResults := by
  intro s service hs
  have taken : exec (.clearLock service) s = .next (clearLockBody service s).answer :=
    congrArg Host.Outcome.next (takeCommand_taken hs (clearLockBody service))
  rw [taken]
  refine ⟨fun hr => ?_, fun hr ha => ?_, fun n hr hn => ⟨fun hv => ?_, fun hv => ?_⟩⟩
  · simp [clearLockBody, hr, State.refuse, Reply.answer]
  · simp [clearLockBody, hr, numberBelow_none (n := 32) ha, State.refuse, Reply.answer]
  · simp [clearLockBody, hr, numberBelow_some hn, hv, State.refuse, Reply.answer]
  · subst hv
    refine ⟨fun k hk only => ⟨fun hc => ?_, fun h b hb => ?_⟩, fun none => ⟨fun hl => ?_, fun hl => ?_⟩⟩
    · have busy : s.fault.slots[k].code ≠ 2 := by rcases hc with hc | hc <;> rw [hc] <;> decide
      rw [clearLockBody_slot hr hn hk only, if_neg busy]
      rfl
    · rw [clearLockBody_slot hr hn hk only, if_pos (by rw [hb]; rfl), State.modFault, FaultMemory.queueErase_valid hb]
      rfl
    · rw [clearLockBody_noSlot hr hn none, if_pos hl]
      rfl
    · rw [clearLockBody_noSlot hr hn none, if_neg hl]
      rfl

end Sys2Proof.Machine
end

section
/-! SUPPORT. What messages and timers do to the Sequencer (R63, R77 to R89). -/

namespace Sys2Proof.Machine

/-! ### Conditions met (R77, R79, R82) -/

section conditions
variable {s : State} {i : Nat} {st : SeqStep}

/-- With no settle delay the up step completes and the next begins (R77). -/
theorem State.upConditionMet_next (hst : s.seq.upList[i]? = some st) (h : st.settle = 0) :
    s.upConditionMet i = s.beginUp (i + 1) := by
  simp only [State.upConditionMet, hst, h, if_true]

/-- Any other up step settles (R77, R79). -/
theorem State.upConditionMet_settle (hst : s.seq.upList[i]? = some st) (h : st.settle ≠ 0) :
    s.upConditionMet i = { s with
      seq :=
        { s.seq with
          state := .poweringUp i .settling, stepLimit := none, discharge := none, settle := some st.settle } } := by
  simp only [State.upConditionMet, hst, h, if_false]
  rfl

/-- With no settle delay the down step completes and the next begins (R77). -/
theorem State.downConditionMet_next {c : DownCause} (hst : s.seq.downList[i]? = some st) (h : st.settle = 0) :
    s.downConditionMet c i = s.beginDown c (i + 1) := by
  simp only [State.downConditionMet, hst, h, if_true]

/-- Any other down step settles (R77, R82). -/
theorem State.downConditionMet_settle {c : DownCause} (hst : s.seq.downList[i]? = some st) (h : st.settle ≠ 0) :
    s.downConditionMet c i = { s with
      seq :=
        { s.seq with
          state := .poweringDown i .settling c, stepLimit := none, discharge := none, settle := some st.settle } } := by
  simp only [State.downConditionMet, hst, h, if_false]
  rfl

end conditions

/-! ### Messages (R35, R63, R79, R82, R88) -/

section messages
variable {s : State}

theorem State.seqAbort_up {j : Nat} {p : StepPhase} (h : s.seq.state = .poweringUp j p) (n : Fin 32) :
    s.seqAbort n = s.powerDown (.entry n) := by
  simp only [State.seqAbort, h]

theorem State.seqAbort_running (h : s.seq.state = .running) (n : Fin 32) :
    s.seqAbort n = s.powerDown (.entry n) := by
  simp only [State.seqAbort, h]

/-- In NOT_READY, STANDBY and POWERING_DOWN no abort begins a power-down (R88). -/
theorem State.seqAbort_idle (h : s.seq.state = .notReady ∨ s.seq.state = .standby ∨
    ∃ j p c, s.seq.state = .poweringDown j p c) (n : Fin 32) : s.seqAbort n = s := by
  rcases h with h | h | ⟨j, p, c, h⟩ <;> simp only [State.seqAbort, h]

/-- Outside WAITING of an up step no switch that enters ON is waited for (R79). -/
theorem State.seqSwitchOn_idle (h : ∀ j, s.seq.state ≠ .poweringUp j .waiting) (i : Fin 8) : s.seqSwitchOn i = s := by
  unfold State.seqSwitchOn
  split
  · rename_i hj
    exact absurd hj (h _)
  all_goals rfl

/-- In WAITING of an up step its own switch meets the condition, and no other (R79). -/
theorem State.seqSwitchOn_waiting {j : Nat} {st : SeqStep} (h : s.seq.state = .poweringUp j .waiting)
    (hst : s.seq.upList[j]? = some st) (i : Fin 8) :
    s.seqSwitchOn i = if st.switch = i then s.upConditionMet j else s := by
  simp only [State.seqSwitchOn, h, hst, Option.map_some, Option.some.injEq]

/-- Outside WAITING of a down step no indicator is waited for (R82). -/
theorem State.seqIndicator_idle (h : ∀ j c, s.seq.state ≠ .poweringDown j .waiting c) (i : Fin 8) (v : Bool) :
    s.seqIndicator i v = s := by
  unfold State.seqIndicator
  split
  · rename_i hj
    exact absurd hj (h _ _)
  all_goals rfl

/-- In WAITING of a down step its own switch's indicator, once true, meets the condition, and no other (R82). -/
theorem State.seqIndicator_waiting {j : Nat} {c : DownCause} {st : SeqStep}
    (h : s.seq.state = .poweringDown j .waiting c) (hst : s.seq.downList[j]? = some st) (i : Fin 8) :
    s.seqIndicator i true = if st.switch = i then s.downConditionMet c j else s := by
  simp only [State.seqIndicator, h, hst, Option.map_some, Option.some.injEq, true_and]

end messages

/-! ### Expiries (R77, R79, R82) -/

section expiries
variable {s : State}

theorem Timer.due_none : Timer.due none = false := rfl

theorem stepLimitExpiry_stopped (h : s.seq.stepLimit = none) : stepLimitExpiry s = s := by
  unfold stepLimitExpiry
  simp only [h, Timer.due_none, Bool.false_eq_true, if_false]
  repeat' split
  all_goals rfl

theorem dischargeExpiry_stopped (h : s.seq.discharge = none) : dischargeExpiry s = s := by
  unfold dischargeExpiry
  simp only [h, Timer.due_none, Bool.false_eq_true, if_false]
  repeat' split
  all_goals rfl

theorem settleExpiry_stopped (h : s.seq.settle = none) : settleExpiry s = s := by
  simp only [settleExpiry, h, Timer.due_none, Bool.false_eq_true, if_false]

/-- A step limit that expires posts its event and begins a power-down with cause TIMEOUT (R79). -/
theorem stepLimitExpiry_due {i : Nat} {st : SeqStep} (h : s.seq.state = .poweringUp i .waiting)
    (hst : s.seq.upList[i]? = some st) (hd : s.seq.stepLimit = some 0) : stepLimitExpiry s =
      (s.post .seqStepTimeout (some i) (BitVec.ofNat 16 st.switch.val) 2).powerDown (.timeout i) := by
  simp only [stepLimitExpiry, h, hst, hd]
  rfl

/-- A discharge timer that expires posts its event, and the condition counts as met (R82). -/
theorem dischargeExpiry_due {i : Nat} {c : DownCause} {st : SeqStep} (h : s.seq.state = .poweringDown i .waiting c)
    (hst : s.seq.downList[i]? = some st) (hd : s.seq.discharge = some 0) : dischargeExpiry s =
      (s.post .dischargeTimeout (some st.switch.val) 0 1).downConditionMet c i := by
  simp only [dischargeExpiry, h, hst, hd]
  rfl

theorem settleExpiry_up {i : Nat} (h : s.seq.state = .poweringUp i .settling) (hd : s.seq.settle = some 0) :
    settleExpiry s = s.beginUp (i + 1) := by
  simp only [settleExpiry, h, hd]
  rfl

theorem settleExpiry_down {i : Nat} {c : DownCause} (h : s.seq.state = .poweringDown i .settling c)
    (hd : s.seq.settle = some 0) : settleExpiry s = s.beginDown c (i + 1) := by
  simp only [settleExpiry, h, hd]
  rfl

end expiries

/-- An expiry of the Sequencer out of reset. -/
theorem exec_sequencerExpiries {s : State} (h : s.inReset = false) :
    exec .stepLimitExpiry s = .next (stepLimitExpiry s) ∧
    exec .dischargeTimerExpiry s = .next (dischargeExpiry s) ∧
    exec .settleTimerExpiry s = .next (settleExpiry s) :=
  ⟨congrArg Host.Outcome.next (awake_of h _), congrArg Host.Outcome.next (awake_of h _),
    congrArg Host.Outcome.next (awake_of h _)⟩

/-- Settles O40: the messages by the state of the Sequencer, then the expiries by the timer that runs. -/
theorem sequencerEvents : Obligations.SequencerEvents := by
  refine ⟨fun s n i st => ⟨?_, fun h => ?_, fun h => ?_, fun j h hst => ?_, fun j h => ?_, fun h v => ?_, fun j c h hst => ?_⟩,
    fun s hs => ?_⟩
  · rintro (⟨j, p, h⟩ | h)
    · exact State.seqAbort_up h n
    · exact State.seqAbort_running h n
  · have down : ∀ j p, s.seq.state ≠ .poweringUp j p := by
      rcases h with h | h | ⟨_, _, _, h⟩ <;> simp [h]
    exact ⟨State.seqAbort_idle h n, State.seqSwitchFailed_idle down i, State.seqSwitchOn_idle (fun j => down j .waiting) i⟩
  · exact ⟨State.seqSwitchFailed_idle (by simp [h]) i, State.seqSwitchOn_idle (by simp [h]) i⟩
  · rw [State.seqSwitchOn_waiting h hst]
    refine ⟨fun hi => if_neg hi, fun hi h0 => ?_, fun hi h0 => ?_⟩
    · rw [if_pos hi, State.upConditionMet_next hst h0]
    · rw [if_pos hi, State.upConditionMet_settle hst h0]
  · exact State.seqSwitchOn_idle (by simp [h]) i
  · exact State.seqIndicator_idle h i v
  · rw [State.seqIndicator_waiting h hst]
    refine ⟨s.seqIndicator_false i, fun hi => if_neg hi, fun hi h0 => ?_, fun hi h0 => ?_⟩
    · rw [if_pos hi, State.downConditionMet_next hst h0]
    · rw [if_pos hi, State.downConditionMet_settle hst h0]
  · obtain ⟨hlimit, hdischarge, hsettle⟩ := exec_sequencerExpiries hs
    rw [hlimit, hdischarge, hsettle]
    refine ⟨fun h => ?_, fun h => ?_, fun h => ?_, fun i st h hst hd => ?_, fun i c st h hst hd => ⟨fun h0 => ?_, fun h0 => ?_⟩,
      fun hd => ⟨fun i h => ?_, fun i c h => ?_⟩⟩
    · rw [stepLimitExpiry_stopped h]
    · rw [dischargeExpiry_stopped h]
    · rw [settleExpiry_stopped h]
    · rw [stepLimitExpiry_due h hst hd]
    · exact congrArg Host.Outcome.next ((dischargeExpiry_due h hst hd).trans (State.downConditionMet_next hst h0))
    · exact congrArg Host.Outcome.next ((dischargeExpiry_due h hst hd).trans (State.downConditionMet_settle hst h0))
    · rw [settleExpiry_up h hd]
    · rw [settleExpiry_down h hd]

end Sys2Proof.Machine
end

section
/-! SUPPORT. The phases of an erase, and the order of the messages of its completion (R46, R133, R142, R146, R149). -/

namespace Sys2Proof.Machine

/-! ### The erase in flight (R142, R149) -/

/-- The erase in flight is the head of the work list, in the phase it has reached. -/
theorem FaultMemory.erasingNow_of {f : FaultMemory} {i : WorkItem} {rest : List WorkItem} (hw : f.work = i :: rest)
    (hk : i.kind ≠ .program) (p : OpPhase) :
    f.erasingNow p = if f.phase = some p then some (i.slot, i.kind) else none := by
  unfold FaultMemory.erasingNow
  rw [hw]
  simp [hk]

/-- The mark phase ends: the mark is written, and the clear phase begins (R142). -/
theorem FaultMemory.erasePhaseEnd_mark {f : FaultMemory} {i : WorkItem} {rest : List WorkItem} (hw : f.work = i :: rest)
    (hk : i.kind ≠ .program) (hp : f.phase = some .mark) : f.erasePhaseEnd = { f with
      medium := f.medium.set i.slot { f.medium[i.slot] with mark := .whole () }, phase := some .clear } := by
  unfold FaultMemory.erasePhaseEnd
  rw [FaultMemory.erasingNow_of hw hk, if_pos hp]
  rfl

/-- The clear phase ends: header and body are blank, and the unmark phase begins (R142). -/
theorem FaultMemory.erasePhaseEnd_clear {f : FaultMemory} {i : WorkItem} {rest : List WorkItem} (hw : f.work = i :: rest)
    (hk : i.kind ≠ .program) (hp : f.phase = some .clear) : f.erasePhaseEnd = { f with
      medium := f.medium.set i.slot { f.medium[i.slot] with header := .blank, body := .blank }
      phase := some .unmark } := by
  unfold FaultMemory.erasePhaseEnd
  rw [FaultMemory.erasingNow_of hw hk, FaultMemory.erasingNow_of hw hk, if_neg (by simp [hp]), if_pos hp]
  rfl

section cleanup
variable {f : FaultMemory} {k : Fin 4} {rest : List WorkItem}

/-- A cleanup erase ends: the mark is blank, the slot EMPTY without cleanup mark, and the next item starts (R142). -/
theorem FaultMemory.cleanupComplete_cleanup (hw : f.work = { kind := .cleanup, slot := k } :: rest)
    (hp : f.phase = some .unmark) (hs : f.slots[k] = .empty true) : f.cleanupComplete =
      ({ f with
        medium := f.medium.set k { f.medium[k] with mark := .blank }, slots := f.slots.set k (.empty false)
        work := rest } : FaultMemory).startHead := by
  unfold FaultMemory.cleanupComplete
  rw [FaultMemory.erasingNow_of hw (by simp), if_pos hp]
  simp only [hs]
  unfold FaultMemory.finishHead FaultMemory.setSlot FaultMemory.modMedium
  rw [hw, List.tail_cons]

/-- The erase part of a cleanup erase then program ends: the serial phase of its program begins (R149). -/
theorem FaultMemory.cleanupComplete_program {e : Fin 32} {m : Byte} {y : Option Half} {b : LockBody} {x : Half}
    (hw : f.work = { kind := .cleanupThenProgram, slot := k } :: rest) (hp : f.phase = some .unmark)
    (hs : f.slots[k] = .writing e m y b) (hx : f.serialWord = .value x) : f.cleanupComplete = { f with
      medium := f.medium.set k { f.medium[k] with mark := .blank }, phase := some .serial
      slots := f.slots.set k (.writing e m (some (x + 1)) b) } := by
  unfold FaultMemory.cleanupComplete
  rw [FaultMemory.erasingNow_of hw (by simp), if_pos hp]
  dsimp only
  rw [FaultMemory.startProgram_of_writing (x := y) (by exact hs)]
  simp only [FaultMemory.modMedium, hx, SerialWord.next]

end cleanup

/-! ### The messages of an erase completion (R46, R133, R142, R146; log 4) -/

/-- The start of an item neither reads nor moves the messages on their way (R140). -/
theorem FaultMemory.startHead_sent (f : FaultMemory) (l : List ClearMessage) :
    ({ f with sent := l } : FaultMemory).startHead = { f.startHead with sent := l } := by
  unfold FaultMemory.startHead
  dsimp only
  split
  · rfl
  · split
    · unfold FaultMemory.startProgram
      dsimp only
      split <;> rfl
    all_goals rfl

theorem FaultMemory.finishHead_sent (f : FaultMemory) : f.finishHead.sent = f.sent := by
  obtain ⟨_, _, _, h, _⟩ := f.finishHead_names
  rw [h]

/-- The lock-cleared message at the engine, as one update (R46). -/
theorem State.lockCleared_eq (s : State) (n : Fin 32) :
    s.lockCleared n = if s.entries[n].state = .locked then s.returned n 3 else s := by
  unfold State.lockCleared
  rw [State.recover_eq]
  rfl

/-- The item in flight is done. -/
def State.finished (s : State) : State := s.modFault FaultMemory.finishHead

section order
variable (s : State) (n : Fin 32) (k : Fin 4)

theorem State.finished_lockCleared : (s.lockCleared n).finished = s.finished.lockCleared n := by
  rw [State.lockCleared_eq, State.lockCleared_eq]
  exact apply_ite State.finished _ _ _

theorem State.finished_unpin : (s.unpin n).finished = s.finished.unpin n := rfl

theorem State.finished_postLockCleared : (s.postLockCleared k n).finished = s.finished.postLockCleared k n := rfl

theorem State.finished_send (m : ClearMessage) : (s.send m).finished = s.finished.send m := by
  unfold State.finished State.send State.modFault
  dsimp only
  rw [s.fault.finishHead_sent]
  exact congrArg (fun f => ({ s with fault := f } : State))
    (FaultMemory.startHead_sent { s.fault with work := s.fault.work.tail } _)

/-- The engine and the Capture Store take their messages in either order. -/
theorem State.lockCleared_unpin : (s.lockCleared n).unpin n = (s.unpin n).lockCleared n := by
  rw [State.lockCleared_eq, State.lockCleared_eq]
  exact apply_ite (fun t : State => t.unpin n) _ _ _

/-- What the engine takes leaves the messages on their way. -/
theorem State.lockCleared_send (m : ClearMessage) : (s.lockCleared n).send m = (s.send m).lockCleared n := by
  rw [State.lockCleared_eq, State.lockCleared_eq]
  exact apply_ite (fun t : State => t.send m) _ _ _

/-- The store takes its message at once or later; the engine takes its own before LOCK_CLEARED is posted, after it, or later
(R142; log 4). -/
theorem State.announceClear_orders (engine : Fin 3) (later : Bool) :
    ∃ base, (base = s.unpin n ∨ base = s.send (.store n)) ∧
      (s.announceClear k n engine later = (base.lockCleared n).postLockCleared k n ∨
       s.announceClear k n engine later = (base.postLockCleared k n).lockCleared n ∨
       s.announceClear k n engine later = (base.postLockCleared k n).send (.engine n)) := by
  refine ⟨if later then s.send (.store n) else s.unpin n, by cases later <;> simp, ?_⟩
  unfold State.announceClear
  have first : (if later then (s.lockCleared n).send (.store n) else (s.lockCleared n).unpin n) =
      (if later then s.send (.store n) else s.unpin n).lockCleared n := by
    cases later
    · exact s.lockCleared_unpin n
    · exact s.lockCleared_send n _
  match engine with
  | 0 => exact .inl (congrArg (fun t : State => t.postLockCleared k n) first)
  | 1 => exact .inr (.inl rfl)
  | 2 => exact .inr (.inr rfl)

end order

/-- At the completion of an ERASING slot's erase its slot is EMPTY and its K-holder leaves; the messages follow, in one of
the orders that log 4 leaves open, and the next item starts (R142). -/
theorem eraseComplete_erasing {s : State} {k : Fin 4} {rest : List WorkItem} {h : LockHeader} {b : Option LockBody}
    (hw : s.fault.work = { kind := .erase, slot := k } :: rest) (hs : s.fault.slots[k] = .erasing h b)
    (hp : s.fault.phase = some .unmark) : ∃ engine later, eraseComplete s =
      ((((s.modFault fun f => (f.modMedium k fun d => { d with mark := .blank }).setSlot k (.empty false)).leaveMask
        (.k k) h.mask).draw Config.freeOrder 5).2.announceClear k h.entry engine later).finished := by
  unfold eraseComplete
  rw [FaultMemory.erasingNow_of hw (by simp), if_pos hp]
  simp only [hs]
  exact ⟨_, _, rfl⟩

/-- Settles O45: each phase by the head of the work list; at a completion the end of the item trades places with the
messages, and these come in the orders of `announceClear_orders`. -/
theorem erasePhases : Obligations.ErasePhases := by
  refine ⟨fun s i rest hs hw hk => ⟨fun hp => ?_, fun hp => ?_⟩, fun s k rest h b hs hw hslot hp => ?_,
    fun s k rest hs hp => ⟨fun hw hslot => ?_, fun e m y b x hw hslot hx => ?_⟩⟩
  · refine congrArg Host.Outcome.next ((awake_of hs _).trans ?_)
    rw [State.modFault, FaultMemory.erasePhaseEnd_mark hw hk hp]
  · refine congrArg Host.Outcome.next ((awake_of hs _).trans ?_)
    rw [State.modFault, FaultMemory.erasePhaseEnd_clear hw hk hp]
  · intro n emptied cleared sent told
    have completes : exec .eraseComplete s = .next (eraseComplete s) := congrArg Host.Outcome.next (awake_of hs _)
    obtain ⟨engine, later, he⟩ := eraseComplete_erasing hw hslot hp
    rw [completes, he]
    generalize hu : (State.draw _ Config.freeOrder 5).2 = u
    have left : u.finished = emptied := by
      rw [← hu]
      refine congrArg (fun f => ({ emptied with fault := f } : State)) ?_
      change FaultMemory.startHead { s.fault with
        medium := s.fault.medium.set k { s.fault.medium[k] with mark := .blank }
        slots := s.fault.slots.set k (.empty false), work := s.fault.work.tail } = _
      rw [hw]
      rfl
    have engineTold (v : State) (hv : v.entries = s.entries) : v.lockCleared n = told v := by
      rw [State.lockCleared_eq, hv]
    obtain ⟨base, hbase, horder⟩ := u.announceClear_orders n k engine later
    have hbase : base.finished = { emptied with captures := s.captures.unpin n } ∨
        base.finished = sent emptied (.store n) := by
      rcases hbase with rfl | rfl
      · rw [State.finished_unpin, left]
        exact .inl rfl
      · rw [State.finished_send, left]
        exact .inr rfl
    have same : base.finished.entries = s.entries := by rcases hbase with h | h <;> rw [h]
    refine ⟨base.finished, hbase, ?_⟩
    rcases horder with h | h | h
    · rw [h, State.finished_postLockCleared, State.finished_lockCleared, engineTold _ same]
      exact .inl rfl
    · rw [h, State.finished_lockCleared, State.finished_postLockCleared,
        engineTold (base.finished.postLockCleared k n) same]
      exact .inr (.inl rfl)
    · rw [h, State.finished_send, State.finished_postLockCleared]
      exact .inr (.inr rfl)
  · refine congrArg Host.Outcome.next ((awake_of hs _).trans ?_)
    rw [State.modFault, FaultMemory.cleanupComplete_cleanup hw hp hslot]
  · refine congrArg Host.Outcome.next ((awake_of hs _).trans ?_)
    rw [State.modFault, FaultMemory.cleanupComplete_program hw hp hslot hx]

end Sys2Proof.Machine
end

section
/-! SUPPORT. Qualifications and returns at the expiry of an entry's timer (R21, R28 to R40, R128). -/

namespace Sys2Proof.Machine

/-! ### Qualifications (R30 to R35, R128) -/

/-- The companions of a capture: the channels listed that name a valid record, with its latest reading (R6, R128). -/
theorem State.companionReadings_eq (s : State) (c : EntryConfig) : s.companionReadings c =
    c.companionBytes.filterMap fun b =>
      if h : b.toNat < 18 then
        let ch : Fin 18 := ⟨b.toNat, h⟩
        if s.records[channelSource ch].valid then some { channel := ch, reading := s.records[channelSource ch].latest }
        else none
      else none := by
  unfold State.companionReadings EntryConfig.companions
  rw [List.filterMap_filterMap]
  refine List.filterMap_congr fun b _ => ?_
  unfold numberBelow
  split <;> rfl

/-- The record that the Capture Store makes of entry `n`'s qualification (R128). -/
def State.captureMade (s : State) (n : Fin 32) (d : DwellRecord) : CaptureStore × CaptureRecord :=
  s.captures.make n s.entries[n].config.isLock s.timestamp d (s.companionReadings s.entries[n].config)

/-- A qualification up to its event: the capture with its copy for tier LOCK, the entry's own part, and its holder in the
switches of its mask (R30 steps 1 to 4). -/
def State.qualifiedPart (s : State) (n : Fin 32) (d : DwellRecord) : State :=
  { s with
    captures := (s.captureMade n d).1
    fault :=
      if s.entries[n].config.isLock then
        { s.fault with copies := s.fault.copies ++ [{ entry := n, body := (s.captureMade n d).2.lockBody }] }
      else s.fault
    entries := s.entries.set n (s.entries[n].qualified (s.captureMade n d).2.id)
    switches := Vector.ofFn fun i =>
      if s.entries[n].config.mask.getLsbD i.val then s.switches[i].join (.e n) else s.switches[i] }

/-- The event, the lock request and the abort message of a qualification, from the record it made (R30 steps 5 to 7). -/
def State.tellQualified (s : State) (n : Fin 32) (c : EntryConfig) (id : Byte) : State :=
  let posted := s.post (if c.isLock then .entryLocked else .entryAsserted) (some n.val) (id.setWidth 16) c.classOf
  let requested := if c.isLock then posted.lockRequest n c.mask else posted
  if c.isAbort then requested.seqAbort n else requested

/-- The request to the Capture Store, as one update (R128, R132). -/
theorem State.capture_eq (s : State) (n : Fin 32) (d : DwellRecord) : s.capture n d =
    ({ s with
      captures := (s.captureMade n d).1
      fault :=
        if s.entries[n].config.isLock then
          { s.fault with copies := s.fault.copies ++ [{ entry := n, body := (s.captureMade n d).2.lockBody }] }
        else s.fault }, (s.captureMade n d).2.id) := by
  unfold State.capture State.captureMade
  dsimp only
  cases s.entries[n].config.isLock <;> rfl

/-- A qualification in the order of R30. -/
theorem State.qualify_eq (s : State) (n : Fin 32) (d : DwellRecord) : s.qualify n d =
    (s.qualifiedPart n d).tellQualified n s.entries[n].config (s.captureMade n d).2.id := by
  unfold State.qualify
  rw [State.capture_eq]
  dsimp only
  generalize hu : State.modEntry _ n _ = u
  have config : u.entries[n].config = s.entries[n].config := by
    rw [← hu]
    simp [Entry.qualified]
  unfold State.announce
  dsimp only
  rw [config, State.joinMask_ite, ← hu]
  rfl

/-! ### The engine's messages before an expiry (R46; log 4) -/

/-- What the engine takes reaches no record, no capture and not the time (R46). -/
theorem State.receiveEngine_frame (s : State) : s.receiveEngine.captures = s.captures ∧
    s.receiveEngine.records = s.records ∧ s.receiveEngine.timestamp = s.timestamp := by
  have one (t : State) (m : ClearMessage) (hm : m.toEngine = true) : (t.receive m).captures = t.captures ∧
      (t.receive m).records = t.records ∧ (t.receive m).timestamp = t.timestamp := by
    cases m with
    | store n => cases hm
    | engine n =>
      change (t.lockCleared n).captures = _ ∧ (t.lockCleared n).records = _ ∧ (t.lockCleared n).timestamp = _
      rw [State.lockCleared_eq]
      split <;> exact ⟨rfl, rfl, rfl⟩
  have all (l : List ClearMessage) (hl : ∀ m ∈ l, m.toEngine = true) (t : State) :
      (l.foldl State.receive t).captures = t.captures ∧ (l.foldl State.receive t).records = t.records ∧
        (l.foldl State.receive t).timestamp = t.timestamp := by
    induction l generalizing t with
    | nil => exact ⟨rfl, rfl, rfl⟩
    | cons m l ih =>
      obtain ⟨h1, h2, h3⟩ := one t m (hl m (List.mem_cons_self ..))
      obtain ⟨g1, g2, g3⟩ := ih (fun x hx => hl x (List.mem_cons_of_mem _ hx)) (t.receive m)
      exact ⟨g1.trans h1, g2.trans h2, g3.trans h3⟩
  exact all _ (fun m hm => (List.mem_filter.1 hm).2) _

/-! ### Expiries (R21, R28, R40) -/

/-- The dwell timer of a PENDING entry expires: the engine takes its messages, and the entry qualifies (R28). -/
theorem dwellExpiry_due {s : State} {n : Fin 32} {d : DwellRecord} (hs : s.entries[n].state = .pending)
    (ht : s.entries[n].dwellTimer = some 0) (hd : s.entries[n].dwellRecord = some d) :
    dwellExpiry n s = s.receiveEngine.qualify n d := by
  unfold dwellExpiry
  rw [hd]
  exact if_pos ⟨hs, by rw [ht]; rfl⟩

theorem dwellExpiry_stopped {s : State} {n : Fin 32} (h : s.entries[n].dwellTimer = none) : dwellExpiry n s = s := by
  unfold dwellExpiry
  split
  · refine if_neg fun ⟨_, due⟩ => ?_
    rw [h] at due
    cases due
  · rfl

/-- The recovery timer of a RECOVERING entry expires: the entry returns to IDLE with cause TIMER (R38, R40). -/
theorem recoveryExpiry_due {s : State} {n : Fin 32} (hs : s.entries[n].state = .recovering)
    (ht : s.entries[n].recoveryTimer = some 0) : recoveryExpiry n s = s.returned n 1 := by
  unfold recoveryExpiry
  rw [if_pos ⟨hs, by rw [ht]; rfl⟩, State.recover_eq]
  rfl

theorem recoveryExpiry_stopped {s : State} {n : Fin 32} (h : s.entries[n].recoveryTimer = none) :
    recoveryExpiry n s = s := by
  refine if_neg fun ⟨_, due⟩ => ?_
  rw [h] at due
  cases due

/-- Settles O30: at a dwell expiry the qualification in the order of R30, from the state in which the engine has taken its
messages; at a recovery expiry the return to IDLE. -/
theorem entryTimerExpiries : Obligations.EntryTimerExpiries := by
  refine ⟨fun s n d hs hp ht hd => ?_, fun s n hs => ⟨fun hr ht => ?_, fun ht => ?_, fun ht => ?_⟩⟩
  · intro u e lock listed companions made captured posted requested
    obtain ⟨hcaptures, hrecords, htime⟩ := s.receiveEngine_frame
    have entry : u.entries[n] = e := State.receiveWhere_pending _ hp
    have listedReadings : u.companionReadings e.config = companions := by
      rw [State.companionReadings_eq, hrecords]
      rfl
    have record : u.captureMade n d = made := by
      unfold State.captureMade
      rw [entry, listedReadings, hcaptures, htime]
      rfl
    have qualified : u.qualifiedPart n d = captured := by
      unfold State.qualifiedPart
      rw [record, entry]
      rfl
    refine congrArg Host.Outcome.next ((awake_of hs _).trans ?_)
    rw [dwellExpiry_due hp ht hd, State.qualify_eq, entry, record, qualified]
    unfold State.tellQualified EntryConfig.isAbort
    by_cases ha : e.config.abort = 0
    · simp only [ha, bne_self_eq_false, Bool.false_eq_true, if_false, if_true]
      rfl
    · simp only [ha, bne_iff_ne, ne_eq, not_false_eq_true, if_true, if_false]
      rfl
  · exact congrArg Host.Outcome.next ((awake_of hs _).trans (recoveryExpiry_due hr ht))
  · exact congrArg Host.Outcome.next ((awake_of hs _).trans (recoveryExpiry_stopped ht))
  · exact congrArg Host.Outcome.next ((awake_of hs _).trans (dwellExpiry_stopped ht))

end Sys2Proof.Machine
end

section
/-! SUPPORT. What the blocks tell each other (R26, R46, R64, R97, R100, R117, R133, R146, R154, R155). -/

namespace Sys2Proof.Machine

/-! ### Unpins (R133) -/

/-- The first element that satisfies `p` is changed, behind elements that do not. -/
theorem modify_findIdx_append {α : Type} {p : α → Bool} (f : α → α) {l l' : List α} {x : α} (hl : ∀ y ∈ l, p y = false)
    (hx : p x = true) : (l ++ x :: l').modify ((l ++ x :: l').findIdx p) f = l ++ f x :: l' := by
  induction l with
  | nil => simp [List.findIdx_cons, hx]
  | cons y l ih =>
    have hy := hl y (List.mem_cons_self ..)
    simp [List.findIdx_cons, hy, ih fun z hz => hl z (List.mem_cons_of_mem _ hz)]

/-- Without an element that satisfies `p` nothing is changed. -/
theorem modify_findIdx_none {α : Type} {p : α → Bool} (f : α → α) {l : List α} (hl : ∀ y ∈ l, p y = false) :
    l.modify (l.findIdx p) f = l := by
  induction l with
  | nil => rfl
  | cons y l ih =>
    have hy := hl y (List.mem_cons_self ..)
    simp [List.findIdx_cons, hy, ih fun z hz => hl z (List.mem_cons_of_mem _ hz)]

theorem CaptureStore.unpin_none {c : CaptureStore} {n : Fin 32} (h : ∀ r ∈ c.records, ¬(r.entry = n ∧ r.pinned = true)) :
    c.unpin n = c := by
  unfold CaptureStore.unpin
  dsimp only
  rw [modify_findIdx_none _ (by simpa using h), List.reverse_reverse]

/-- The records stand newest first, so the oldest that names the entry and is pinned is the last (R133). -/
theorem CaptureStore.unpin_oldest {c : CaptureStore} {n : Fin 32} {newer older : List CaptureRecord} {r : CaptureRecord}
    (hc : c.records = newer ++ r :: older) (he : r.entry = n) (hp : r.pinned = true)
    (h : ∀ x ∈ older, ¬(x.entry = n ∧ x.pinned = true)) :
    c.unpin n = { c with records := newer ++ { r with pinned := false } :: older } := by
  unfold CaptureStore.unpin
  dsimp only
  have order : c.records.reverse = older.reverse ++ r :: newer.reverse := by simp [hc]
  rw [order, modify_findIdx_append _ (by simpa using h) (by simp [he, hp])]
  simp

/-! ### Records invalidated by a load (R64, R97, R100, R117) -/

/-- The records of the channels that are gone, and the indicators of the switches that watch one of them, with the
Scan Unit as the load leaves it. -/
theorem State.modScan_invalidated (s : State) (f : ScanUnit → ScanUnit) {gone : Fin 18 → Bool} {l : List (Fin 18)}
    (h : ∀ ch, gone ch = true ↔ ch ∈ l) : (s.modScan f).invalidated l = { s with
      scan := f s.scan
      records := Vector.ofFn fun r =>
        if ∃ ch : Fin 18, channelSource ch = r ∧ gone ch = true then
          { s.records[r] with valid := false, count := 0, clipped := false }
        else s.records[r]
      switches := Vector.ofFn fun i =>
        if ∃ ch : Fin 18, s.switches[i].config.goodChannel.toNat = ch.val ∧ gone ch = true then
          { s.switches[i] with discharged := false }
        else s.switches[i] } := by
  unfold State.invalidated
  simp only [h, SwitchConfig.channelOf, numberBelow_eq_some, State.modScan_records, State.modScan_switches,
    and_comm (a := _ ∈ l)]
  rfl

/-! ### A qualification without a dwell (R26, R28) -/

/-- A qualification takes of its entry nothing but what the dwell leaves alone: its configuration and its counts. -/
theorem State.qualify_of_pending (s : State) (n : Fin 32) (d : DwellRecord) (dwell : Timer) :
    ({ s with
      entries := s.entries.set n
        { s.entries[n] with state := .pending, dwellTimer := dwell, dwellRecord := some d } } : State).qualify n d =
      s.qualify n d := by
  generalize ht : ({ s with entries := s.entries.set n _ } : State) = t
  have entry : t.entries[n] = { s.entries[n] with state := .pending, dwellTimer := dwell, dwellRecord := some d } := by
    rw [← ht]
    exact (getElem_set_fin ..).trans (if_pos rfl)
  have config : t.entries[n].config = s.entries[n].config := by rw [entry]
  have record : t.captureMade n d = s.captureMade n d := by
    unfold State.captureMade
    rw [config, ← ht]
    rfl
  have part : t.qualifiedPart n d = s.qualifiedPart n d := by
    unfold State.qualifiedPart
    rw [record, entry, ← ht]
    simp [Entry.qualified]
  rw [State.qualify_eq, State.qualify_eq, config, record, part]

/-! ### Messages of an erase completion, oldest first (R46, R133, R146; log 4) -/

/-- The messages on their way replaced. -/
def State.withSent (s : State) (l : List ClearMessage) : State := { s with fault := { s.fault with sent := l } }

/-- A message taken neither reads nor moves those on their way. -/
theorem State.receive_withSent (s : State) (l : List ClearMessage) (m : ClearMessage) :
    (s.withSent l).receive m = (s.receive m).withSent l := by
  cases m with
  | store n => rfl
  | engine n =>
    change (s.withSent l).lockCleared n = (s.lockCleared n).withSent l
    rw [State.lockCleared_eq, State.lockCleared_eq]
    exact (apply_ite (fun t : State => t.withSent l) (s.entries[n].state = .locked) (s.returned n 3) s).symm

theorem State.foldl_receive_withSent (q l : List ClearMessage) (s : State) :
    q.foldl State.receive (s.withSent l) = (q.foldl State.receive s).withSent l := by
  induction q generalizing s with
  | nil => rfl
  | cons m q ih => rw [List.foldl_cons, State.receive_withSent, ih, List.foldl_cons]

/-- What is taken and what stays on its way. -/
theorem State.receiveWhere_eq (p : ClearMessage → Bool) (s : State) : s.receiveWhere p =
    ((s.fault.sent.filter p).foldl State.receive s).withSent (s.fault.sent.filter fun m => !p m) :=
  State.foldl_receive_withSent _ _ s

theorem State.withSent_receiveWhere (p : ClearMessage → Bool) (l : List ClearMessage) (s : State) :
    (s.withSent l).receiveWhere p = ((l.filter p).foldl State.receive s).withSent (l.filter fun m => !p m) := by
  rw [State.receiveWhere_eq, State.foldl_receive_withSent]
  rfl

/-- The oldest message is taken first, where it is among those taken. -/
theorem State.receiveWhere_cons {p : ClearMessage → Bool} {s : State} {m : ClearMessage} {rest : List ClearMessage}
    (h : s.fault.sent = m :: rest) (hm : p m = true) :
    s.receiveWhere p = ((s.withSent rest).receive m).receiveWhere p := by
  rw [State.receive_withSent, State.withSent_receiveWhere, State.receiveWhere_eq, h]
  simp [hm]

/-- It stays the oldest on its way, where it is not. -/
theorem State.receiveWhere_skip {p : ClearMessage → Bool} {s : State} {m : ClearMessage} {rest : List ClearMessage}
    (h : s.fault.sent = m :: rest) (hm : p m = false) : s.receiveWhere p =
      ((s.withSent rest).receiveWhere p).withSent (m :: ((s.withSent rest).receiveWhere p).fault.sent) := by
  rw [State.withSent_receiveWhere, State.receiveWhere_eq, h]
  simp only [List.filter_cons, hm, Bool.false_eq_true, if_false, Bool.not_false, if_true]
  rfl

/-- Settles O52: one clause for each kind of message, each by the lemma on it above. -/
theorem messagesBetweenBlocks : Obligations.MessagesBetweenBlocks := by
  refine ⟨fun s kind source detail cls q mark => ⟨_, rfl, rfl⟩, fun c n => ⟨CaptureStore.unpin_none, ?_⟩,
    fun s gone => ⟨fun ch c hg => ?_, fun l hg => ?_⟩, fun s n d hs _ hsent => ?_,
    fun s => ⟨fun h => ⟨State.receiveAll_none h, State.receiveEngine_none h⟩, fun m rest h => ⟨?_, ?_⟩⟩⟩
  · exact fun newer r older hc he hp hold => CaptureStore.unpin_oldest hc he hp hold
  · rw [State.applyChannel_eq]
    exact s.modScan_invalidated _ (by simpa using hg)
  · rw [State.applyList_eq]
    exact s.modScan_invalidated _ (by simpa using hg)
  · refine congrArg Host.Outcome.next ((awake_of (by exact hs) _).trans ?_)
    rw [dwellExpiry_due (d := d), State.receiveEngine_none (by exact hsent), State.qualify_of_pending]
    all_goals simp
  · rintro n rfl
    have told : (s.withSent rest).receive (.engine n) = _ := (s.withSent rest).lockCleared_eq n
    dsimp only
    constructor
    · exact (State.receiveWhere_cons h rfl).trans (congrArg State.receiveAll told)
    · exact (State.receiveWhere_cons h rfl).trans (congrArg State.receiveEngine told)
  · rintro n rfl
    exact ⟨State.receiveWhere_cons h rfl, State.receiveWhere_skip h rfl⟩

end Sys2Proof.Machine
end

section
/-! SUPPORT. SOFT RESET: its checks, and what it does at each block (R66, R112, R185, R186). -/

namespace Sys2Proof.Machine

/-! ### The E-holders leave (R66, R186) -/

/-- A holder that leaves a switch in OFF moves its hold set alone (R58, R65). -/
theorem Switch.leave_off {w : Switch} (h : w.state = .off) (y : Holder) :
    w.leave y = { w with holds := w.holds &&& ~~~y.mark } := by
  unfold Switch.leave
  dsimp only
  split
  · unfold Switch.becomeFree
    dsimp only
    rw [h]
  · rfl

/-- Entry `n` is active with switch `i` in its mask. -/
def State.holdsSwitch (s : State) (n : Fin 32) (i : Fin 8) : Bool :=
  s.entries[n].state.active && s.entries[n].config.mask.getLsbD i.val

/-- A hold set of switch `i` without the holders of the active entries of a list. -/
def State.withoutHolders (s : State) (l : List (Fin 32)) (i : Fin 8) (set : HoldSet) : HoldSet :=
  l.foldl (fun set n => if s.holdsSwitch n i then set &&& ~~~(Holder.e n).mark else set) set

/-- One entry's holder leaves the switches, all in OFF. -/
theorem State.dropHolder_eq {s : State} (hoff : ∀ i : Fin 8, s.switches[i].state = .off) (n : Fin 32) :
    s.dropHolder n = { s with switches := Vector.ofFn fun i =>
      { s.switches[i] with holds := s.withoutHolders [n] i s.switches[i].holds } } := by
  unfold State.dropHolder State.withoutHolders State.holdsSwitch
  simp only [List.foldl_cons, List.foldl_nil]
  cases ha : s.entries[n].state.active with
  | false => simp
  | true =>
    simp only [if_true, Bool.true_and]
    unfold State.leaveMask State.mapSwitches
    refine congrArg (fun w => ({ s with switches := Vector.ofFn w } : State)) (funext fun i => ?_)
    dsimp only
    split
    · exact Switch.leave_off (hoff i) _
    · rfl

/-- The holders of a list of entries leave in turn. -/
theorem State.foldl_dropHolder (l : List (Fin 32)) {s : State} (hoff : ∀ i : Fin 8, s.switches[i].state = .off) :
    l.foldl State.dropHolder s = { s with switches := Vector.ofFn fun i =>
      { s.switches[i] with holds := s.withoutHolders l i s.switches[i].holds } } := by
  induction l generalizing s with
  | nil => simp [State.withoutHolders]
  | cons n l ih =>
    rw [List.foldl_cons, State.dropHolder_eq hoff, ih (by simpa using hoff)]
    simp only [Fin.getElem_fin, Vector.getElem_ofFn]
    rfl

/-- A member that stays after the holders of a list have left: one that was there and is none of them. -/
theorem State.withoutHolders_getLsbD (s : State) (l : List (Fin 32)) (i : Fin 8) (set : HoldSet) {b : Nat} (hb : b < 37) :
    (s.withoutHolders l i set).getLsbD b =
      (set.getLsbD b && !l.any fun n => s.holdsSwitch n i && b == n.val) := by
  unfold State.withoutHolders
  induction l generalizing set with
  | nil => simp
  | cons n l ih =>
    rw [List.foldl_cons, ih, List.any_cons]
    by_cases hn : s.holdsSwitch n i = true
    · rw [if_pos hn, BitVec.getLsbD_and, BitVec.getLsbD_not, Holder.getLsbD_mark, hn, Bool.true_and, Bool.not_or,
        Bool.and_assoc, decide_eq_true hb, Bool.true_and]
      rfl
    · rw [if_neg hn, eq_false_of_ne_true hn, Bool.false_and, Bool.false_or]

/-- Without the holders of all active entries the hold set keeps its K-holders and X (R65, R66). -/
theorem State.withoutHolders_all {s : State} (h : s.eHoldersExact) (i : Fin 8) :
    s.withoutHolders (List.finRange 32) i s.switches[i].holds = s.switches[i].holds &&& (0x1F#5 ++ 0#32) := by
  refine BitVec.eq_of_getLsbD_eq fun b hb => ?_
  rw [s.withoutHolders_getLsbD _ i _ hb, BitVec.getLsbD_and, BitVec.getLsbD_append]
  by_cases he : b < 32
  · have member : s.switches[i].holds.getLsbD b = s.holdsSwitch ⟨b, he⟩ i := h i ⟨b, he⟩
    rw [member, if_pos he, BitVec.getLsbD_zero, Bool.and_false, Bool.and_eq_false_iff]
    by_cases hm : s.holdsSwitch ⟨b, he⟩ i = true
    · refine .inr ?_
      rw [Bool.not_eq_false', List.any_eq_true]
      exact ⟨⟨b, he⟩, List.mem_finRange _, by rw [hm]; exact beq_self_eq_true b⟩
    · exact .inl (eq_false_of_ne_true hm)
  · have stays : ((List.finRange 32).any fun n => s.holdsSwitch n i && b == n.val) = false := by
      rw [List.any_eq_false]
      intro n _ hn
      have hb : b = n.val := by simpa using (Bool.and_eq_true_iff.1 hn).2
      exact he (hb ▸ n.isLt)
    have top : ∀ j : Fin 5, (0x1F#5).getLsbD j.val = true := by decide
    rw [stays, if_neg he, top ⟨b - 32, by omega⟩]
    rfl

/-! ### The whole of it (R186) -/

/-- An accepted SOFT RESET in STANDBY, where every switch is in OFF (R186). -/
theorem State.softReset_eq {s : State} (hoff : ∀ i : Fin 8, s.switches[i].state = .off) (hE : s.eHoldersExact) :
    s.softReset = { s with
      entries := Vector.replicate 32 Entry.default
      switches := s.switches.map fun w => { w with holds := w.holds &&& (0x1F#5 ++ 0#32), discharged := false }
      scan := s.scan.softReset
      records := s.records.map MeasRecord.invalidated
      captures := CaptureStore.default
      fault := { s.fault with sent := [] }
      queue := EventQueue.default } := by
  unfold State.softReset
  rw [State.foldl_dropHolder _ hoff]
  simp only [State.withoutHolders_all hE, State.foldl_setIndicator, List.mem_finRange, if_true]
  refine congrArg (fun w => ({ s with
    entries := Vector.replicate 32 Entry.default, switches := w, scan := s.scan.softReset
    records := s.records.map MeasRecord.invalidated, captures := CaptureStore.default
    fault := { s.fault with sent := [] }, queue := EventQueue.default } : State)) ?_
  refine Vector.ext fun i hi => ?_
  simp [State.modScan, Switch.undischarged]

/-- Settles O50: the checks by the state of the Sequencer, then the effect at each block. -/
theorem softResetResults : Obligations.SoftResetResults := by
  intro s hs
  have taken : exec .softReset s = .next (softResetBody s).answer :=
    congrArg Host.Outcome.next (takeCommand_taken hs softResetBody)
  rw [taken]
  refine ⟨fun hr => ?_, fun hr hc => ?_, fun hr hq hoff hE => ?_⟩
  · simp [softResetBody, hr, State.refuse, Reply.answer]
  · have busy := (SeqState.busy_iff _).2 hc
    unfold softResetBody
    rw [if_neg (by simp [hr])]
    cases hq : s.seq.state with
    | notReady | standby => simp [hq, SeqState.busy] at busy
    | poweringUp | running | poweringDown => rfl
  · unfold softResetBody
    rw [if_neg (by simp [hr]), hq]
    dsimp only
    rw [State.softReset_eq hoff hE]
    rfl

end Sys2Proof.Machine
end

section
/-! SUPPORT. Who takes the sample of a channel, and in what order two switches
do (R23, R56, R57, R63, R64, R79, R115; log 3). -/

namespace Sys2Proof.Machine

/-! ### Who watches a channel (R23, R115) -/

/-- The numbers that satisfy a test, up to order: those of any list that holds them once each. -/
theorem filter_finRange_perm {n : Nat} {p : Fin n → Bool} {l : List (Fin n)} (hl : l.Nodup)
    (h : ∀ x, p x = true ↔ x ∈ l) : ((List.finRange n).filter p).Perm l :=
  (List.perm_ext_iff_of_nodup ((List.nodup_finRange n).filter _) hl).2 fun x => by simp [h]

/-- An entry takes an evaluation where it names the record and is not in OFF (R23). -/
theorem State.mem_watchers (s : State) (ch : Fin 18) (n : Fin 32) :
    (s.entries[n].config.sourceOf == some (channelSource ch) && s.entries[n].state != .off) = true ↔
      s.entries[n].config.source.toNat = ch.val ∧ s.entries[n].state ≠ .off := by
  rw [Bool.and_eq_true, beq_iff_eq, EntryConfig.sourceOf, numberBelow_eq_some, bne_iff_ne]
  rfl

theorem State.watchers_perm {s : State} {ch : Fin 18} {l : List (Fin 32)} (hl : l.Nodup)
    (h : ∀ n, (s.entries[n].config.source.toNat = ch.val ∧ s.entries[n].state ≠ .off) ↔ n ∈ l) :
    (s.watchers (channelSource ch)).Perm l :=
  filter_finRange_perm hl fun n => (s.mem_watchers ch n).trans (h n)

/-- A switch takes a sample where its good channel is the channel (R115). -/
theorem State.switchesOn_perm {s : State} {ch : Fin 18} {l : List (Fin 8)} (hl : l.Nodup)
    (h : ∀ i, s.switches[i].config.goodChannel.toNat = ch.val ↔ i ∈ l) : (s.switchesOn ch).Perm l :=
  filter_finRange_perm hl fun i => by rw [beq_iff_eq, SwitchConfig.channelOf, numberBelow_eq_some, h]

/-! ### The step hands over its codes (R106) -/

/-- The code that a step with one channel hands over for it. -/
def stepCode (st : ScanStep) (ch : Fin 18) (x : StepCodes) : RawCode :=
  if st.a = some ch then x.a else if st.b = some ch then x.b else x.c

/-- A step with one channel hands over one code. -/
theorem stepUpdates_single {st : ScanStep} {ch : Fin 18} (x : StepCodes) (h : st.channels = [ch]) :
    stepUpdates st x = [.update ch (stepCode st ch x)] := by
  obtain ⟨a, b, c, settle⟩ := st
  unfold ScanStep.channels at h
  cases a <;> cases b <;> cases c <;> simp at h <;> subst h <;> simp [stepUpdates, stepCode]

/-- The state after the update of channel `ch` by a raw code (R114 to R116). -/
def State.sampled (s : State) (ch : Fin 18) (code : RawCode) : State :=
  s.modRecord (channelSource ch) fun m =>
    m.sample (s.scan.channels[ch].convert code) s.scan.channels[ch].weight.val s.scan.frameNumber

/-- The updated record is valid, whatever it was. -/
theorem MeasRecord.sample_valid (m : MeasRecord) (v : Int) (k : Nat) (frame : Word) : (m.sample v k frame).valid = true := by
  unfold MeasRecord.sample
  dsimp only
  split
  · assumption
  · rfl

theorem State.sampled_valid (s : State) (ch : Fin 18) (code : RawCode) :
    (s.sampled ch code).records[channelSource ch].valid = true := by
  unfold State.sampled
  rw [State.modRecord_records, getElem_set_fin, if_pos rfl]
  exact MeasRecord.sample_valid ..

/-- The update is taken first, and then the messages it sends (R115). -/
theorem State.handOver_single {s : State} {st : ScanStep} {ch : Fin 18} (x : StepCodes)
    (hst : s.scan.list[s.scan.stepIndex]? = some st) (h : st.channels = [ch]) : s.handOver x =
      drain 40 ((s.sampled ch (stepCode st ch x)).updateMessages ch) (s.sampled ch (stepCode st ch x)) := by
  unfold State.handOver
  rw [hst]
  dsimp only
  rw [stepUpdates_single x h]
  exact drain_single 40 _ s

/-- Of two messages that wait one is taken first, and the other as it stands after it (R25, R56; log 3). -/
theorem drain_pair (fuel : Nat) (m m' : Message) (s : State) : ∃ one two,
    (one = m ∧ two = m' ∨ one = m' ∧ two = m) ∧
      let t := { s with choice := s.choice + 1 }
      drain (fuel + 1) [m, m'] s = drain fuel (two.after t (t.take one).1 :: (t.take one).2) (t.take one).1 := by
  have step : drain (fuel + 1) [m, m'] s =
      let p := s.pick m [m']
      let t := p.2.take p.1.1
      drain fuel (p.1.2.map (Message.after p.2 t.1) ++ t.2) t.1 := by
    simp only [drain]
  have picked : s.pick m [m'] = ((m, [m']), { s with choice := s.choice + 1 }) ∨
      s.pick m [m'] = ((m', [m]), { s with choice := s.choice + 1 }) := by
    unfold State.pick
    dsimp only [State.draw]
    rcases Nat.mod_two_eq_zero_or_one (Config.freeOrder s.choice) with h | h
    · exact .inl (by simp [h])
    · exact .inr (by simp [h])
  rcases picked with h | h
  · exact ⟨m, m', .inl ⟨rfl, rfl⟩, by rw [step, h]; rfl⟩
  · exact ⟨m', m, .inr ⟨rfl, rfl⟩, by rw [step, h]; rfl⟩

/-! ### A switch takes a sample (R57, R63, R64) -/

/-- A switch that is not RAMPING, or whose gate was energised after the update, moves its indicator alone (R56, R64). -/
theorem State.watch_indicator {s : State} {i : Fin 8} {good : Bool} (h : good = false ∨ s.switches[i].state ≠ .ramping)
    (ch : Fin 18) : ∃ v, s.watch ch i good = s.setIndicator i v := by
  have unmoved (y : Reading) : (if good then s.goodSample i y else s) = s := by
    rcases h with rfl | h
    · rfl
    · have idle : s.goodSample i y = s := if_neg fun g => h g.1
      rw [idle, ite_self]
  unfold State.watch
  dsimp only
  split
  · exact ⟨_, congrArg (fun t : State => t.setIndicator i _) (unmoved _)⟩
  · exact ⟨_, rfl⟩

/-- Outside WAITING of a down step an indicator moves nothing else (R82). -/
theorem State.setIndicator_idle {s : State} (h : ∀ j c, s.seq.state ≠ .poweringDown j .waiting c) (i : Fin 8) (v : Bool) :
    s.setIndicator i v = s.modSwitch i fun w => { w with discharged := v } := by
  unfold State.setIndicator
  split
  · rename_i hv
    subst hv
    exact congrArg (fun w => ({ s with switches := w } : State)) (Vector.set_getElem_self i.isLt).symm
  · exact State.seqIndicator_idle (s := s.modSwitch i _) (by exact h) i v

/-- The switches after an indicator alone has moved. -/
theorem State.modIndicator_switches (s : State) (i k : Fin 8) (v : Bool) :
    (s.modSwitch i fun w => { w with discharged := v }).switches[k] =
      { s.switches[k] with discharged := if i = k then v else s.switches[k].discharged } := by
  rw [State.modSwitch_switches, getElem_set_fin]
  split
  · rename_i h
    subst h
    rfl
  · rfl

/-! ### The other switch of the channel (R56, R79) -/

/-- Switch `i` ramps at or above its good threshold in up step `p`, which has no settle delay and waits for it; the next up
step is that of switch `j`, in OFF and held by nobody; no FAILED message is on its way. -/
structure State.Rising (s : State) (ch : Fin 18) (p : Nat) (i j : Fin 8) : Prop where
  valid : s.records[channelSource ch].valid = true
  ramping : s.switches[i].state = .ramping
  good : s.switches[i].config.goodThreshold.toInt ≤ s.records[channelSource ch].latest.toInt
  waiting : s.seq.state = .poweringUp p .waiting
  own : ∃ st, s.seq.upList[p]? = some st ∧ st.switch = i ∧ st.settle = 0
  next : ∃ st, s.seq.upList[p + 1]? = some st ∧ st.switch = j
  off : s.switches[j].state = .off ∧ s.switches[j].demand = false ∧ s.switches[j].holds = 0
  told : s.seq.failed = []

/-- Switch `i` is ON, and the next up step has begun: switch `j` ramps. -/
structure State.Risen (s : State) (p : Nat) (i j : Fin 8) : Prop where
  on : s.switches[i].state = .on
  ramping : s.switches[j].state = .ramping
  waiting : s.seq.state = .poweringUp (p + 1) .waiting

theorem State.Rising.setIndicator {s : State} {ch : Fin 18} {p : Nat} {i j : Fin 8} (h : s.Rising ch p i j) (k : Fin 8)
    (v : Bool) : (s.setIndicator k v).Rising ch p i j := by
  rw [State.setIndicator_idle (by simp [h.waiting])]
  exact
    { valid := h.valid
      ramping := by rw [State.modIndicator_switches]; exact h.ramping
      good := by rw [State.modIndicator_switches]; exact h.good
      waiting := h.waiting
      own := h.own
      next := h.next
      off := by rw [State.modIndicator_switches]; exact h.off
      told := h.told }

theorem State.Risen.setIndicator {s : State} {p : Nat} {i j : Fin 8} (h : s.Risen p i j) (k : Fin 8) (v : Bool) :
    (s.setIndicator k v).Risen p i j := by
  rw [State.setIndicator_idle (by simp [h.waiting])]
  exact
    { on := by rw [State.modIndicator_switches]; exact h.on
      ramping := by rw [State.modIndicator_switches]; exact h.ramping
      waiting := h.waiting }

/-- An up step that begins with its switch in OFF and held by nobody makes it ramp (R56, R78). -/
theorem State.beginUp_ramps {s : State} {p : Nat} {st : SeqStep} (hst : s.seq.upList[p]? = some st)
    (hoff : s.switches[st.switch].state = .off) (hd : s.switches[st.switch].demand = false)
    (hh : s.switches[st.switch].holds = 0) : (s.beginUp p).seq.state = .poweringUp p .waiting ∧
      (s.beginUp p).switches = s.switches.set st.switch ({ s.switches[st.switch] with demand := true } : Switch).startRamp := by
  have ramps : s.switches[st.switch].takeDemand true = ({ s.switches[st.switch] with demand := true } : Switch).startRamp := by
    unfold Switch.takeDemand
    rw [hd, if_neg Bool.false_ne_true, if_pos rfl, hoff]
    exact if_pos hh
  rw [← ramps]
  unfold State.beginUp
  rw [hst]
  dsimp only
  split <;> exact ⟨rfl, rfl⟩

/-- The sample of switch `i` brings it to ON, and with it the next up step begins (R57, R63, R79). -/
theorem State.Rising.watch {s : State} {ch : Fin 18} {p : Nat} {i j : Fin 8} (hij : i ≠ j) (h : s.Rising ch p i j) :
    (s.watch ch i true).Risen p i j := by
  obtain ⟨st, hst, rfl, hsettle⟩ := h.own
  obtain ⟨next, hnext, rfl⟩ := h.next
  obtain ⟨hoff, hdemand, hfree⟩ := h.off
  unfold State.watch
  rw [if_pos h.valid]
  refine State.Risen.setIndicator ?_ st.switch _
  rw [if_pos rfl]
  unfold State.goodSample
  rw [if_pos ⟨h.ramping, h.good⟩]
  generalize ht : (s.modSwitch st.switch fun w => w.enter .on) = t
  have seq : t.seq = s.seq := by rw [← ht]; rfl
  have on : t.switches[st.switch].state = .on := by
    rw [← ht, State.modSwitch_switches, getElem_set_fin, if_pos rfl]
    rfl
  have other : t.switches[next.switch] = s.switches[next.switch] := by
    rw [← ht, State.modSwitch_switches, getElem_set_fin, if_neg hij]
  rw [State.takeFailures_none (by rw [seq]; exact h.told),
    State.seqSwitchOn_waiting (by rw [seq]; exact h.waiting) (by rw [seq]; exact hst), if_pos rfl,
    State.upConditionMet_next (by rw [seq]; exact hst) hsettle]
  obtain ⟨hseq, hswitches⟩ := State.beginUp_ramps (s := t) (by rw [seq]; exact hnext) (by rw [other]; exact hoff)
    (by rw [other]; exact hdemand) (by rw [other]; exact hfree)
  refine ⟨?_, ?_, hseq⟩
  · rw [hswitches, getElem_set_fin, if_neg hij.symm]
    exact on
  · rw [hswitches, getElem_set_fin, if_pos rfl]
    rfl

/-- Whichever of the two switches takes the update first, `i` enters ON and `j` stays RAMPING: where `j` comes second its gate
was energised after the update, and where it comes first it is in OFF (R56). -/
theorem drain_rising {s : State} {ch : Fin 18} {p : Nat} {i j : Fin 8} (hij : i ≠ j) (h : s.Rising ch p i j)
    {l : List (Fin 8)} (hl : l = [i, j] ∨ l = [j, i]) (fuel : Nat) :
    (drain (fuel + 2) (l.map fun k => Message.watch ch k true) s).Risen p i j := by
  have either : ∃ one two, (one = i ∧ two = j ∨ one = j ∧ two = i) ∧
      let t := { s with choice := s.choice + 1 }
      drain (fuel + 2) (l.map fun k => Message.watch ch k true) s =
        drain (fuel + 1) [(Message.watch ch two true).after t (t.watch ch one true)] (t.watch ch one true) := by
    rcases hl with rfl | rfl <;>
      obtain ⟨_, _, ⟨rfl, rfl⟩ | ⟨rfl, rfl⟩, taken⟩ := drain_pair (fuel + 1) (.watch ch _ true) (.watch ch _ true) s
    · exact ⟨i, j, .inl ⟨rfl, rfl⟩, taken⟩
    · exact ⟨j, i, .inr ⟨rfl, rfl⟩, taken⟩
    · exact ⟨j, i, .inr ⟨rfl, rfl⟩, taken⟩
    · exact ⟨i, j, .inl ⟨rfl, rfl⟩, taken⟩
  have ht : State.Rising { s with choice := s.choice + 1 } ch p i j := ⟨h.1, h.2, h.3, h.4, h.5, h.6, h.7, h.8⟩
  obtain ⟨one, two, order, taken⟩ := either
  rw [taken]
  generalize ({ s with choice := s.choice + 1 } : State) = t at ht ⊢
  rw [drain_single]
  rcases order with ⟨rfl, rfl⟩ | ⟨rfl, rfl⟩
  · have risen := ht.watch hij
    have stale : (Message.watch ch two true).after t (t.watch ch one true) = .watch ch two false := by
      show Message.watch ch two
        (true && (t.switches[two].state == .ramping || (t.watch ch one true).switches[two].state != .ramping)) = _
      rw [ht.off.1, risen.ramping]
      rfl
    obtain ⟨v, hv⟩ := State.watch_indicator (s := t.watch ch one true) (i := two) (.inl rfl) ch
    rw [stale]
    refine (congrArg (State.Risen · p one two) ((drain_none fuel _).trans hv)).mpr ?_
    exact risen.setIndicator two v
  · have fresh : (Message.watch ch two true).after t (t.watch ch one true) = .watch ch two true := by
      show Message.watch ch two (true && (t.switches[two].state == .ramping || _)) = _
      rw [ht.ramping]
      rfl
    obtain ⟨v, hv⟩ := State.watch_indicator (s := t) (i := one) (good := true) (.inr (by rw [ht.off.1]; decide)) ch
    rw [fresh, hv]
    refine (congrArg (State.Risen · p two one) (drain_none fuel _)).mpr ?_
    exact (ht.setIndicator one v).watch hij

/-- The messages that an update sends when nobody names the record or the channel (R115). -/
theorem State.updateMessages_of {s : State} {ch : Fin 18} {a : List (Fin 32)} {b : List (Fin 8)}
    (ha : s.watchers (channelSource ch) = a) (hb : s.switchesOn ch = b) : s.updateMessages ch =
      a.map (Message.evaluate (channelSource ch)) ++ b.map fun i => Message.watch ch i true := by
  rw [← ha, ← hb]
  rfl

/-! ### Who takes the sample (R23, R57, R79) -/

/-- Settles O23: the step's code is taken, and then what the update sends, by who watches the channel. -/
theorem samplesReachTheirWatchers : Obligations.SamplesReachTheirWatchers := by
  intro s x st ch hst hch
  have taken := s.handOver_single x hst hch
  have nobody (h : ∀ n : Fin 32, ¬(s.entries[n].config.source.toNat = ch.val ∧ s.entries[n].state ≠ .off)) :
      (s.sampled ch (stepCode st ch x)).watchers (channelSource ch) = [] :=
    (State.watchers_perm (s := s.sampled ch (stepCode st ch x)) (l := []) .nil
      fun n => iff_of_false (h n) List.not_mem_nil).eq_nil
  have noSwitch (h : ∀ i : Fin 8, ¬s.switches[i].config.goodChannel.toNat = ch.val) :
      (s.sampled ch (stepCode st ch x)).switchesOn ch = [] :=
    (State.switchesOn_perm (s := s.sampled ch (stepCode st ch x)) (l := []) .nil
      fun n => iff_of_false (h n) List.not_mem_nil).eq_nil
  refine ⟨?_, ?_, ?_, ?_⟩
  · intro hn hi
    rw [taken, State.updateMessages_of (nobody hn) (noSwitch hi)]
    exact drain_none ..
  · intro n hn hi
    have watcher := State.watchers_perm (s := s.sampled ch (stepCode st ch x)) (l := [n]) (List.nodup_singleton n)
      fun m => (hn m).trans List.mem_singleton.symm
    rw [taken, State.updateMessages_of (List.perm_singleton.1 watcher) (noSwitch hi)]
    exact (drain_single 39 _ _).trans (drain_none ..)
  · intro i hn hi
    have switch := State.switchesOn_perm (s := s.sampled ch (stepCode st ch x)) (l := [i]) (List.nodup_singleton i)
      fun k => (hi k).trans List.mem_singleton.symm
    rw [taken, State.updateMessages_of (nobody hn) (List.perm_singleton.1 switch)]
    refine ((drain_single 39 _ _).trans (drain_none ..)).trans ?_
    exact if_pos (s.sampled_valid ch _)
  · intro i j p u v hij hn hi hramp hgood hwait hu hui hsettle hv hvj hoff hdemand hholds htold
    have both := State.switchesOn_perm (s := s.sampled ch (stepCode st ch x)) (l := [i, j]) (by simp [hij])
      fun k => (hi k).trans List.mem_pair.symm
    have rising : (s.sampled ch (stepCode st ch x)).Rising ch p i j :=
      { valid := s.sampled_valid ch _
        ramping := hramp
        good := hgood
        waiting := hwait
        own := ⟨u, hu, hui, hsettle⟩
        next := ⟨v, hv, hvj⟩
        off := ⟨hoff, hdemand, hholds⟩
        told := htold }
    obtain ⟨on, ramping, waiting⟩ := drain_rising hij rising (List.perm_pair.1 both) 38
    rw [taken, State.updateMessages_of (nobody hn) rfl]
    exact ⟨on, ramping, waiting⟩

end Sys2Proof.Machine
end

section
/-! SUPPORT. Every step that is one message or a chain of them keeps what `Keeps` says; the few whole commands that do more are
named by `isDeep`. -/

namespace Sys2Proof.Machine

/-! ### Commands, written bytes and events of a block -/

theorem takeCommand_keeps {s : State} {body : State → Reply} (h : Keeps s (body s).state) :
    Keeps s (takeCommand body s) := by
  unfold takeCommand
  split
  · exact h.trans (Keeps.other rfl)
  · exact .refl s

theorem takeWrite_keeps {s : State} {a : Byte} {f : State → State} (h : Keeps s (f s)) : Keeps s (takeWrite a f s) := by
  unfold takeWrite
  split
  · exact h.trans (Keeps.other rfl)
  · exact .refl s

theorem awake_keeps {s : State} {f : State → State} (h : Keeps s (f s)) : Keeps s (awake f s) := by
  unfold awake
  split
  · exact .refl s
  · exact h

/-! ### Limit Table and Qualification Engine -/

theorem loadEntryBody_keeps (s : State) : Keeps s (loadEntryBody s).state := by
  unfold loadEntryBody
  split
  · exact .refl s
  split
  · exact .refl s
  rename_i n _
  split
  · exact .refl s
  split
  · exact .refl s
  rename_i inactive
  split
  · exact .refl s
  split
  · exact .refl s
  split
  · exact .refl s
  split
  · exact State.applyLoad_keeps (by simpa using inactive) _
  · exact Keeps.entryOnly id (.inr ⟨rfl, rfl⟩)

theorem releaseBody_keeps (s : State) : Keeps s (releaseBody s).state := by
  unfold releaseBody
  split
  · exact .refl s
  split
  · exact .refl s
  split
  case h_7 hs => exact State.recover_keeps (by rw [hs]; rfl) _
  all_goals exact .refl s

/-- The immediate clear of a volatile lock is an unpin and the return of an active entry (R47). -/
theorem State.clearVolatile_keeps {s : State} {n : Fin 32} (h : s.entries[n].state.active = true) :
    Keeps s (s.clearVolatile n) := by
  have cleared : s.clearVolatile n = (s.unpin n).recover n .service := by
    rw [State.clearVolatile_eq, State.recover_eq]
    rfl
  rw [cleared]
  exact (Keeps.unpin s n).trans (State.recover_keeps (by exact h) _)

/-- A change of Fault Memory that agrees with the medium as before keeps, where no slot's holder moves (R67, R139). -/
theorem Keeps.ofAgreeing {s : State} {f : FaultMemory} (hr : f.restore = s.fault.restore)
    (hk : ∀ k : Fin 4, f.slots[k].holdMask = s.fault.slots[k].holdMask) (ha : s.fault.Agreeing → f.Agreeing) :
    Keeps s { s with fault := f } :=
  Keeps.faultOnly hr hk fun ready h =>
    (State.locksAgree_ready (s := { s with fault := f }) ready).2 (ha ((State.locksAgree_ready ready).1 h))

/-- A VALID slot that becomes ERASING has the same K-holder (R67, R145). -/
theorem State.queueErase_keeps (s : State) (k : Fin 4) : Keeps s (s.modFault fun f => f.queueErase k) := by
  cases hs : s.fault.slots[k] with
  | valid h b =>
    have e := FaultMemory.queueErase_valid hs
    refine Keeps.ofAgreeing (f := s.fault.queueErase k) (by rw [e]) (fun j => ?_) fun ha => ha.queueErase k
    rw [e, getElem_set_fin]
    split
    · rename_i hj
      rw [← hj, hs]
      rfl
    · rfl
  | empty _ | writing _ _ _ _ | erasing _ _ =>
    have e : s.fault.queueErase k = s.fault := by simp only [FaultMemory.queueErase, hs]
    exact Keeps.ofAgreeing (f := s.fault.queueErase k) (by rw [e]) (fun _ => by rw [e]) fun ha => ha.queueErase k

theorem clearLockBody_keeps (service : Bool) (s : State) : Keeps s (clearLockBody service s).state := by
  unfold clearLockBody
  split
  · exact .refl s
  split
  · exact .refl s
  split
  · exact .refl s
  split
  · split
    · exact s.queueErase_keeps _
    all_goals exact .refl s
  · split
    · rename_i hs
      exact State.clearVolatile_keeps (by rw [hs]; rfl)
    · exact .refl s

/-! ### Switch Controller and Sequencer -/

/-- RESTART SWITCH moves one switch by itself (R59, R60). -/
theorem restartSwitchBody_keeps (s : State) : Keeps s (restartSwitchBody s).state := by
  have restart (i : Fin 8) (h : s.switches[i].state = .tripped ∨ s.switches[i].state = .failed) :
      Keeps s (s.modSwitch i Switch.restart) := by
    refine Keeps.switchOnly ?_ ?_ ?_ fun hl => hl.restart h
    all_goals
      unfold Switch.restart
      split <;> rfl
  unfold restartSwitchBody
  split
  · exact .refl s
  split
  · exact .refl s
  split
  case h_5 h => exact restart _ (.inl h)
  case h_6 h => exact restart _ (.inr h)
  all_goals exact .refl s

theorem powerUpBody_keeps (s : State) : Keeps s (powerUpBody s).state := by
  unfold powerUpBody
  split
  · exact .refl s
  split
  case h_5 h =>
    split
    · exact .refl s
    · exact s.beginUp_keeps 0 (by simp [Sequencer.mayDemand_standby h])
  all_goals exact .refl s

theorem powerDownBody_keeps (s : State) : Keeps s (powerDownBody s).state := by
  unfold powerDownBody
  split
  · exact .refl s
  split
  case h_4 h => exact s.powerDown_keeps _ (by simp [Sequencer.mayDemand_running h])
  case h_5 h => exact s.powerDown_keeps _ (by simp [Sequencer.mayDemand_up h])
  all_goals exact .refl s

/-- One switch after the trip line is seen to change: X joins or leaves it if its trip response is yes (R68). -/
def Switch.tripped (w : Switch) (seen : Bool) : Switch :=
  if w.config.obeysTrip then (if seen then w.join .x else w.leave .x) else w

theorem State.tripHolds_switch (s : State) (seen : Bool) (i : Fin 8) :
    (s.tripHolds seen).switches[i] = s.switches[i].tripped seen := by
  simp only [State.tripHolds_switches, Fin.getElem_fin, Vector.getElem_ofFn]
  rfl

section tripped
variable (w : Switch) (seen : Bool)

theorem Switch.tripped_cases : w.config.obeysTrip = false ∧ w.tripped seen = w ∨
    w.config.obeysTrip = true ∧ w.tripped seen = if seen then w.join .x else w.leave .x := by
  unfold Switch.tripped
  cases w.config.obeysTrip with
  | false => exact .inl ⟨rfl, rfl⟩
  | true => exact .inr ⟨rfl, rfl⟩

theorem Switch.tripped_config : (w.tripped seen).config = w.config := by
  rcases w.tripped_cases seen with ⟨_, h⟩ | ⟨_, h⟩ <;> rw [h]
  cases seen <;> simp

theorem Switch.tripped_demand : (w.tripped seen).demand = w.demand := by
  rcases w.tripped_cases seen with ⟨_, h⟩ | ⟨_, h⟩ <;> rw [h]
  cases seen <;> simp

/-- The members of a hold set after the line changed: X as the line has it, and the others as they were (R65, R68). -/
theorem Switch.tripped_has (y : Holder) : (w.tripped seen).holds.has y =
    if y = .x ∧ w.config.obeysTrip = true then seen else w.holds.has y := by
  rcases w.tripped_cases seen with ⟨ho, h⟩ | ⟨ho, h⟩ <;> rw [h]
  · rw [if_neg (by simp [ho])]
  · by_cases hy : y = .x <;> cases seen <;> simp [ho, hy, HoldSet.has_or, HoldSet.has_andNot]

end tripped

theorem Switch.legal.tripped {w : Switch} (h : w.legal) (seen : Bool) : (w.tripped seen).legal := by
  rcases w.tripped_cases seen with ⟨_, e⟩ | ⟨_, e⟩ <;> rw [e]
  · exact h
  · cases seen
    · exact h.leave _
    · exact h.join _

/-- X joins or leaves every switch with trip response yes, and no other holder does (R68). -/
theorem Keeps.tripped (s : State) (seen low : Bool) :
    Keeps s ({ s with trip := { seen := seen, lowAtResetEnd := low } }.tripHolds seen) := by
  have others (w : Switch) (y : Holder) (hy : y ≠ .x) : (w.tripped seen).holds.has y = w.holds.has y :=
    (w.tripped_has seen y).trans (if_neg fun hx => hy hx.1)
  refine ⟨⟨rfl, rfl, rfl, rfl, fun hl i => ?_, id, fun he i n => ?_, fun hx i => ?_, fun hk i k => ?_, id, id, ?_,
    fun _ hl => hl⟩, State.demandsFollow_of rfl fun i => ?_⟩
  · rw [State.tripHolds_switch]
    exact Switch.legal.tripped (hl i) seen
  · rw [State.tripHolds_switch, others _ _ (by simp)]
    exact he i n
  · have before : s.switches[i].holds.has .x = (s.trip.seen && s.switches[i].config.obeysTrip) := hx i
    rw [State.tripHolds_switch, Switch.tripped_config, Switch.tripped_has]
    dsimp only
    cases ho : s.switches[i].config.obeysTrip with
    | true => simp
    | false =>
      rw [ho, Bool.and_false] at before
      simpa using before
  · rw [State.tripHolds_switch, others _ _ (by simp)]
    exact hk i k
  · rintro ⟨h1, h2, h3, h4, h5⟩
    refine ⟨h1, h2, h3, fun i hi => ?_, h5⟩
    rw [State.tripHolds_switch, Switch.tripped_config]
    exact h4 i hi
  · rw [State.tripHolds_switch]
    exact Switch.tripped_demand _ _

theorem tripAssert_keeps (low : Bool) (s : State) : Keeps s (tripAssert low s) := by
  unfold tripAssert
  split
  · exact .refl s
  · dsimp only
    split
    · exact .tripped s true false
    · exact (Keeps.tripped s true false).trans (Keeps.post _ _ _ _ _)

theorem tripRelease_keeps (s : State) : Keeps s (tripRelease s) := by
  unfold tripRelease
  split
  · exact (Keeps.tripped s false false).trans (Keeps.post _ _ _ _ _)
  · exact .refl s

/-! ### Scan Unit and Measurement Table -/

theorem clearMinmaxBody_keeps (s : State) : Keeps s (clearMinmaxBody s).state := by
  unfold clearMinmaxBody
  split
  · exact .refl s
  split
  · exact .refl s
  split
  · exact Keeps.other rfl
  · exact .refl s

theorem loadScanListBody_keeps (s : State) : Keeps s (loadScanListBody s).state := by
  unfold loadScanListBody
  split
  · exact .refl s
  split
  · exact .refl s
  split
  · exact .refl s
  dsimp only
  split
  · exact s.applyList_keeps _
  · exact Keeps.other rfl

theorem loadChannelBody_keeps (s : State) : Keeps s (loadChannelBody s).state := by
  unfold loadChannelBody
  split
  · exact .refl s
  split
  · exact .refl s
  split
  · exact .refl s
  split
  · exact .refl s
  split
  · exact .refl s
  dsimp only
  split
  · exact s.applyChannel_keeps _ _
  · exact Keeps.other rfl

theorem scanNowBody_keeps (s : State) : Keeps s (scanNowBody s).state := by
  unfold scanNowBody
  split
  · exact .refl s
  · exact s.trigger_keeps

theorem writeScanMode_keeps (v : Byte) (s : State) : Keeps s (writeScanMode v s) := by
  unfold writeScanMode
  split
  · exact .refl s
  split
  · exact .refl s
  rename_i m _ _
  cases m with
  | timed | sync => exact Keeps.other rfl
  | stopped =>
    have stopped : Keeps s (s.modScan fun u =>
        { u with mode := .stopped, frameTimer := none, pendingTrigger := false }) := Keeps.other rfl
    unfold State.setMode
    dsimp only
    split
    · exact stopped
    · exact stopped.trans (State.becomeQuiet_keeps _)

theorem writePeriodHigh_keeps (v : Byte) (s : State) : Keeps s (writePeriodHigh v s) := by
  unfold writePeriodHigh
  dsimp only
  split
  · split <;> exact Keeps.other rfl
  · exact .refl s

theorem syncEdge_keeps (s : State) : Keeps s (syncEdge s) := by
  unfold syncEdge
  split
  · exact s.trigger_keeps
  · exact .refl s

theorem frameTimerExpiry_keeps (s : State) : Keeps s (frameTimerExpiry s) := by
  unfold frameTimerExpiry
  split
  · have reloaded : Keeps s (s.modScan ScanUnit.reloadTimer) := Keeps.other rfl
    exact reloaded.trans (State.trigger_keeps _)
  · exact .refl s

theorem scanStepSample_keeps (x : StepCodes) (s : State) : Keeps s (scanStepSample x s) := by
  unfold scanStepSample
  split
  · exact Keeps.other rfl
  · exact .refl s

/-! ### Capture Store and Event Queue -/

theorem dropCapturesBody_keeps (s : State) : Keeps s (dropCapturesBody s).state := by
  unfold dropCapturesBody
  split
  · exact .refl s
  · exact Keeps.capturesOnly fun h => h.drop

theorem popEventBody_keeps (s : State) : Keeps s (popEventBody s).state := by
  unfold popEventBody
  split
  · exact .refl s
  · rename_i hr
    exact Keeps.queueOnly fun h => h.tail hr

theorem writeAlertLevel_keeps (v : Byte) (s : State) : Keeps s (writeAlertLevel v s) := by
  unfold writeAlertLevel
  split
  · exact .refl s
  · exact Keeps.queueOnly fun h => EventQueue.sound.updated h.1

/-! ### Fault Memory -/

theorem programPhaseEnd_keeps (s : State) : Keeps s (s.modFault FaultMemory.programPhaseEnd) := by
  refine Keeps.ofAgreeing (f := s.fault.programPhaseEnd) ?_ (fun j => ?_) fun ha => ha.programPhaseEnd
  all_goals
    rcases s.fault.programPhaseEnd_cases with h | ⟨_, _, _, _, _, _, ⟨_, h⟩ | ⟨_, h⟩⟩ <;> rw [h]

theorem erasePhaseEnd_keeps (s : State) : Keeps s (s.modFault FaultMemory.erasePhaseEnd) := by
  refine Keeps.ofAgreeing (f := s.fault.erasePhaseEnd) ?_ (fun j => ?_) fun ha => ha.erasePhaseEnd
  all_goals
    rcases s.fault.erasePhaseEnd_cases with h | ⟨_, _, ⟨_, h⟩ | ⟨_, h⟩⟩ <;> rw [h]

/-- The serial phase of a program that begins leaves every K-holder (R67, R141). -/
theorem FaultMemory.startProgram_holdMask (f : FaultMemory) (k j : Fin 4) :
    (f.startProgram k).slots[j].holdMask = f.slots[j].holdMask := by
  unfold FaultMemory.startProgram
  split
  · rename_i hs
    dsimp only
    rw [getElem_set_fin]
    split
    · rename_i hj
      rw [← hj, hs]
      rfl
    · rfl
  all_goals rfl

theorem FaultMemory.startProgram_restore (f : FaultMemory) (k : Fin 4) : (f.startProgram k).restore = f.restore := by
  unfold FaultMemory.startProgram
  split <;> rfl

/-- The item that starts leaves every K-holder (R67, R140). -/
theorem FaultMemory.startHead_holdMask (f : FaultMemory) (j : Fin 4) :
    f.startHead.slots[j].holdMask = f.slots[j].holdMask := by
  unfold FaultMemory.startHead
  split
  · rfl
  · split
    · exact f.startProgram_holdMask _ j
    all_goals rfl

theorem FaultMemory.startHead_restore (f : FaultMemory) : f.startHead.restore = f.restore := by
  obtain ⟨_, _, h, _⟩ := f.startHead_names
  rw [h]

theorem FaultMemory.finishHead_holdMask (f : FaultMemory) (j : Fin 4) :
    f.finishHead.slots[j].holdMask = f.slots[j].holdMask :=
  FaultMemory.startHead_holdMask _ j

theorem FaultMemory.finishHead_restore (f : FaultMemory) : f.finishHead.restore = f.restore :=
  FaultMemory.startHead_restore _

/-- A cleanup erase that ends has no K-holder to move (R67, R142). -/
theorem FaultMemory.cleanupComplete_holdMask (f : FaultMemory) (j : Fin 4) :
    f.cleanupComplete.slots[j].holdMask = f.slots[j].holdMask := by
  unfold FaultMemory.cleanupComplete
  split
  · rfl
  dsimp only
  split
  · split
    · rename_i hs
      rw [FaultMemory.finishHead_holdMask]
      simp only [FaultMemory.setSlot, FaultMemory.modMedium]
      rw [getElem_set_fin]
      split
      · rename_i hj
        rw [← hj, hs]
        rfl
      · rfl
    all_goals rfl
  · exact FaultMemory.startProgram_holdMask _ _ j
  all_goals rfl

theorem cleanupComplete_keeps (s : State) : Keeps s (s.modFault FaultMemory.cleanupComplete) := by
  refine Keeps.ofAgreeing (f := s.fault.cleanupComplete) ?_ s.fault.cleanupComplete_holdMask fun ha => ha.cleanupComplete
  rcases s.fault.cleanupComplete_cases with h | ⟨_, ⟨_, h⟩ | ⟨_, h⟩⟩ <;> rw [h]
  · exact FaultMemory.finishHead_restore _
  · exact FaultMemory.startProgram_restore _ _

/-! ### Host Port -/

/-- The steps of the port move the port alone, whatever branch they take (R167 to R171). -/
theorem portStep_keeps (s : State) :
    (∀ v, Keeps s (pointerWrite v s)) ∧ (∀ v, Keeps s (addressByte v s)) ∧
    (∀ service ack, Keeps s (serveByte service ack s)) ∧ (∀ service ack, Keeps s (fieldSnapshot service ack s)) ∧
    Keeps s (transferTimeout s) := by
  have serve (service ack : Bool) : Keeps s (serveByte service ack s) := by
    unfold serveByte
    dsimp only
    repeat' split
    all_goals exact Keeps.other rfl
  refine ⟨fun v => ?_, fun v => ?_, serve, fun service ack => ?_, ?_⟩
  · unfold pointerWrite
    split <;> exact Keeps.other rfl
  · unfold addressByte
    split <;> exact Keeps.other rfl
  · unfold fieldSnapshot
    split
    · exact serve service ack
    · exact .refl s
  · unfold transferTimeout
    split <;> exact Keeps.other rfl

/-- A page write reaches a staging record, which no invariant reads (R176). -/
theorem State.writePage_keeps (s : State) (page part off : Nat) (b : Byte) : Keeps s (s.writePage page part off b) := by
  have staged (q : SeqStaging) : Keeps s (s.modSeq fun p => { p with staging := q }) :=
    ⟨KeepsBase.seqOnly rfl rfl rfl id, fun h => h.mono rfl rfl (fun _ => rfl) fun _ => id⟩
  unfold State.writePage
  split
  · exact .refl s
  split
  · exact Keeps.other rfl
  split
  · exact Keeps.other rfl
  split
  · exact Keeps.other rfl
  split
  · exact staged _
  split
  · exact Keeps.other rfl
  split
  · split <;> exact Keeps.other rfl
  · exact .refl s

theorem State.writeRegister_keeps (s : State) (a : Nat) (b : Byte) : Keeps s (s.writeRegister a b) := by
  unfold State.writeRegister
  repeat' split
  all_goals first
    | exact s.writePage_keeps _ _ _ _
    | exact Keeps.other rfl

theorem registerWrite_keeps (v : Byte) (s : State) : Keeps s (registerWrite v s) := by
  unfold registerWrite
  split
  · exact (s.writeRegister_keeps _ _).trans (Keeps.other rfl)
  · exact .refl s

/-! ### Time base -/

/-- A millisecond of every timer (R127). -/
theorem State.tick_keeps (s : State) : Keeps s s.tick := by
  have entry (n : Fin 32) : s.tick.entries[n] = s.entries[n].tick := by
    rw [State.tick_entries, Fin.getElem_fin, Vector.getElem_map]
    rfl
  have switch (i : Fin 8) : s.tick.switches[i] = s.switches[i].tick := by
    rw [State.tick_switches, Fin.getElem_fin, Vector.getElem_map]
    rfl
  refine ⟨⟨rfl, rfl, rfl, rfl, fun h i => ?_, fun h n => ?_, fun h i n => ?_, fun h i => ?_, fun h i k => ?_, id, id, ?_,
    fun _ => id⟩, fun h => h.mono rfl rfl (fun i => ?_) fun _ => id⟩
  · rw [switch]
    exact (h i).tick
  · rw [entry]
    exact (h n).tick
  · rw [switch, entry]
    exact h i n
  · rw [switch]
    exact h i
  · rw [switch]
    exact h i k
  · rintro ⟨h1, h2, h3, h4, h5⟩
    exact ⟨h1, h2, h3, fun i hi => by rw [switch]; exact h4 i hi, h5⟩
  · rw [switch]
    rfl

theorem timeBaseTick_keeps (s : State) : Keeps s (timeBaseTick s) :=
  (s.receiveAll_keeps.trans (State.takeFailures_keeps _)).trans (State.tick_keeps _)

/-! ### Every such step -/

/-- The commands and events that do more than messages between blocks do: they give a block a new configuration, settle a
stored lock or clear one, or belong to a reset and what follows it. -/
def isDeep (c : Instr) : Bool :=
  match c with
  | .loadSwitch | .loadSequence | .softReset | .powerOnReset | .pinReset | .resetEnd _ _ _ | .restoreSlotSettled
  | .restoreComplete | .programComplete | .eraseComplete => true
  | _ => false

theorem exec_keeps {c : Instr} {s t : State} (hc : isDeep c = false) (h : exec c s = .next t) : Keeps s t := by
  obtain ⟨hpointer, haddress, hserve, hfield, htimeout⟩ := portStep_keeps s
  cases c <;> cases hc <;> cases h
  case scanNow => exact takeCommand_keeps (scanNowBody_keeps s)
  case loadScanList => exact takeCommand_keeps (loadScanListBody_keeps s)
  case loadChannel => exact takeCommand_keeps (loadChannelBody_keeps s)
  case clearMinmax => exact takeCommand_keeps (clearMinmaxBody_keeps s)
  case loadEntry => exact takeCommand_keeps (loadEntryBody_keeps s)
  case release => exact takeCommand_keeps (releaseBody_keeps s)
  case restartSwitch => exact takeCommand_keeps (restartSwitchBody_keeps s)
  case powerUp => exact takeCommand_keeps (powerUpBody_keeps s)
  case powerDown => exact takeCommand_keeps (powerDownBody_keeps s)
  case dropCaptures => exact takeCommand_keeps (dropCapturesBody_keeps s)
  case clearLock service => exact takeCommand_keeps (clearLockBody_keeps service s)
  case popEvent => exact takeCommand_keeps (popEventBody_keeps s)
  case clearLoss => exact takeCommand_keeps (Keeps.queueOnly id)
  case badCommand code =>
    split
    · exact .refl s
    · exact takeCommand_keeps (.refl s)
  case alertLevelWrite v => exact takeWrite_keeps (writeAlertLevel_keeps v s)
  case scanModeWrite v => exact takeWrite_keeps (writeScanMode_keeps v s)
  case framePeriodLowWrite v =>
    refine takeWrite_keeps ?_
    unfold writePeriodLow
    split <;> exact Keeps.other rfl
  case framePeriodHighWrite v => exact takeWrite_keeps (writePeriodHigh_keeps v s)
  case registerWrite v => exact awake_keeps (registerWrite_keeps v s)
  case pointerWrite v => exact awake_keeps (hpointer v)
  case addressByte v => exact awake_keeps (haddress v)
  case fieldSnapshot service ack => exact awake_keeps (hfield service ack)
  case dataByteServed service ack => exact awake_keeps (hserve service ack)
  case transferEnd => exact awake_keeps (Keeps.other rfl)
  case transferTimeout => exact awake_keeps htimeout
  case tripFilterAssert low => exact awake_keeps (tripAssert_keeps low s)
  case tripFilterRelease => exact awake_keeps (tripRelease_keeps s)
  case syncEdge => exact awake_keeps (syncEdge_keeps s)
  case frameTimerExpiry => exact awake_keeps (frameTimerExpiry_keeps s)
  case scanStepSample a b c => exact awake_keeps (scanStepSample_keeps _ s)
  case scanStepComplete => exact awake_keeps (scanStepComplete_keeps s)
  case dwellExpiry n => exact awake_keeps (dwellExpiry_keeps s n)
  case recoveryExpiry n => exact awake_keeps (recoveryExpiry_keeps s n)
  case rampTimerExpiry i => exact awake_keeps (rampExpiry_keeps i s)
  case stepLimitExpiry => exact awake_keeps (stepLimitExpiry_keeps s)
  case dischargeTimerExpiry => exact awake_keeps (dischargeExpiry_keeps s)
  case settleTimerExpiry => exact awake_keeps (settleExpiry_keeps s)
  case programPhaseEnd => exact awake_keeps (programPhaseEnd_keeps s)
  case erasePhaseEnd => exact awake_keeps (erasePhaseEnd_keeps s)
  case cleanupEraseComplete => exact awake_keeps (cleanupComplete_keeps s)
  case timeBaseTick => exact awake_keeps (timeBaseTick_keeps s)

end Sys2Proof.Machine
end

section
/-! SUPPORT. The steps that give a block a new configuration, settle or clear a stored lock, or belong to a reset: each keeps
the switches legal and the hold sets exact (R55 to R68). -/

namespace Sys2Proof.Machine

/-! ### What such a step keeps -/

/-- The passage keeps the switches legal, and the E-holders and X exact. -/
structure SwitchesKept (s t : State) : Prop where
  switches : s.switchesLegal → t.switchesLegal
  eHolders : s.eHoldersExact → t.eHoldersExact
  xHolder : s.xHolderExact → t.xHolderExact

/-- The passage keeps the K-holders exact with them, and leaves whether the part is in reset, ready and restoring. -/
structure HoldsKept (s t : State) : Prop extends SwitchesKept s t where
  inReset : t.inReset = s.inReset
  ready : t.ready = s.ready
  restore : t.fault.restore = s.fault.restore
  kHolders : s.kHoldersExact → t.kHoldersExact

theorem SwitchesKept.refl (s : State) : SwitchesKept s s := ⟨id, id, id⟩

theorem SwitchesKept.trans {s t u : State} (a : SwitchesKept s t) (b : SwitchesKept t u) : SwitchesKept s u :=
  ⟨b.switches ∘ a.switches, b.eHolders ∘ a.eHolders, b.xHolder ∘ a.xHolder⟩

theorem SwitchesKept.foldl {α : Type} {f : State → α → State} (h : ∀ s x, SwitchesKept s (f s x)) (l : List α)
    (s : State) : SwitchesKept s (l.foldl f s) := by
  induction l generalizing s with
  | nil => exact .refl s
  | cons a l ih => exact (h s a).trans (ih _)

theorem SwitchesKept.modFault (s : State) (g : FaultMemory → FaultMemory) : SwitchesKept s (s.modFault g) := ⟨id, id, id⟩

theorem HoldsKept.trans {s t u : State} (a : HoldsKept s t) (b : HoldsKept t u) : HoldsKept s u where
  toSwitchesKept := a.toSwitchesKept.trans b.toSwitchesKept
  inReset := b.inReset.trans a.inReset
  ready := b.ready.trans a.ready
  restore := b.restore.trans a.restore
  kHolders := b.kHolders ∘ a.kHolders

theorem Keeps.holdsKept {s t : State} (h : Keeps s t) : HoldsKept s t :=
  ⟨⟨h.switches, h.eHolders, h.xHolder⟩, h.inReset, h.ready, h.restore, h.kHolders⟩

theorem HoldsKept.refl (s : State) : HoldsKept s s := (Keeps.refl s).holdsKept

/-- A change of Fault Memory alone keeps them, where no slot's holder moves (R67). -/
theorem HoldsKept.ofHoldMasks {s : State} {f : FaultMemory} (hr : f.restore = s.fault.restore)
    (hk : ∀ k : Fin 4, f.slots[k].holdMask = s.fault.slots[k].holdMask) : HoldsKept s { s with fault := f } := by
  refine ⟨⟨id, id, id⟩, rfl, rfl, hr, fun h => ?_⟩
  rw [State.kHoldersExact_iff] at h ⊢
  intro i k
  dsimp only
  rw [hk]
  exact h i k

theorem takeCommand_holdsKept {s : State} {body : State → Reply} (h : HoldsKept s (body s).state) :
    HoldsKept s (takeCommand body s) := by
  unfold takeCommand
  split
  · exact h.trans (Keeps.other rfl).holdsKept
  · exact .refl s

theorem awake_holdsKept {s : State} {f : State → State} (h : HoldsKept s (f s)) : HoldsKept s (awake f s) := by
  unfold awake
  split
  · exact .refl s
  · exact h

/-! ### LOAD SEQUENCE and LOAD SWITCH (R52, R53, R73) -/

/-- The lists in force hold nobody (R74). -/
theorem loadSequenceBody_holdsKept (s : State) : HoldsKept s (loadSequenceBody s).state := by
  have lists (q : Sequencer) : HoldsKept s { s with seq := q } := ⟨⟨id, id, id⟩, rfl, rfl, rfl, id⟩
  unfold loadSequenceBody
  split
  · exact .refl s
  split
  · exact .refl s
  split
  · exact .refl s
  · exact lists _

/-- The members of a hold set after a LOAD SWITCH: X as it is given, and the others as they were (R53). -/
theorem HoldSet.has_withX (set : HoldSet) (member : Bool) (y : Holder) :
    (HoldSet.withX set member).has y = if y = .x then member else set.has y := by
  cases member <;> by_cases hy : y = .x <;> simp [HoldSet.withX, HoldSet.has_or, HoldSet.has_andNot, hy]

/-- A switch in OFF takes a configuration, with X a member as the trip line and its new trip response have it (R53). -/
theorem State.loadConfig_holdsKept {s : State} {i : Fin 8} (h : s.switches[i].state = .off) (c : SwitchConfig) :
    HoldsKept s (s.modSwitch i fun w => w.loaded c s.trip.seen) := by
  have switch (j : Fin 8) : (s.modSwitch i fun w => w.loaded c s.trip.seen).switches[j] =
      if i = j then s.switches[i].loaded c s.trip.seen else s.switches[j] := by
    rw [State.modSwitch_switches, getElem_set_fin]
  have others (j : Fin 8) (y : Holder) (hy : y ≠ .x) :
      (s.modSwitch i fun w => w.loaded c s.trip.seen).switches[j].holds.has y = s.switches[j].holds.has y := by
    rw [switch]
    split
    · rename_i hj
      rw [← hj]
      exact (HoldSet.has_withX _ _ _).trans (if_neg hy)
    · rfl
  refine ⟨⟨fun hl j => ?_, fun he j n => ?_, fun hx j => ?_⟩, rfl, rfl, rfl, fun hk j k => ?_⟩
  · rw [switch]
    split
    · exact (hl i).loaded h c _
    · exact hl j
  · rw [others j _ (by simp)]
    exact he j n
  · rw [switch]
    split
    · exact (HoldSet.has_withX _ _ _).trans ((if_pos rfl).trans (Bool.and_comm _ _))
    · exact hx j
  · rw [others j _ (by simp)]
    exact hk j k

theorem State.loadIndicator_keeps (s : State) (i : Fin 8) : Keeps s (s.loadIndicator i) := by
  unfold State.loadIndicator
  dsimp only
  split
  · exact State.setIndicator_keeps _ _ _
  · exact Keeps.trans (t := { s with choice := s.choice + 1 }) (Keeps.other rfl) (State.setIndicator_keeps _ _ _)

theorem loadSwitchBody_holdsKept (s : State) : HoldsKept s (loadSwitchBody s).state := by
  unfold loadSwitchBody
  split
  · exact .refl s
  split
  · exact .refl s
  split
  · exact .refl s
  rename_i hoff
  split
  · exact .refl s
  split
  · exact .refl s
  · exact (State.loadConfig_holdsKept (by simpa using hoff) _).trans (State.loadIndicator_keeps _ _).holdsKept

/-! ### SOFT RESET (R186) -/

/-- Entry `n` drops its holders: one switch after it (R66, R186). -/
theorem State.dropHolder_switch (s : State) (n : Fin 32) (i : Fin 8) : (s.dropHolder n).switches[i] =
    if s.holdsSwitch n i = true then s.switches[i].leave (.e n) else s.switches[i] := by
  unfold State.dropHolder State.holdsSwitch
  cases s.entries[n].state.active with
  | false => rfl
  | true => simp only [if_true, State.leaveMask_switches, Fin.getElem_fin, Vector.getElem_ofFn, Bool.true_and]

/-- It moves nothing but switches (R186). -/
theorem State.dropHolder_frame (s : State) (n : Fin 32) :
    s.dropHolder n = { s with switches := (s.dropHolder n).switches } := by
  unfold State.dropHolder
  split <;> rfl

/-- The members of a hold set after an entry's holder has left the switches it holds (R65, R66). -/
theorem State.dropHolder_has (s : State) (n : Fin 32) (i : Fin 8) (y : Holder) :
    (s.dropHolder n).switches[i].holds.has y =
      (s.switches[i].holds.has y && !(s.holdsSwitch n i && decide (y = .e n))) := by
  rw [State.dropHolder_switch]
  split
  · rename_i hn
    rw [Switch.leave_holds, HoldSet.has_andNot, hn, Bool.true_and]
  · rename_i hn
    rw [eq_false_of_ne_true hn, Bool.false_and, Bool.not_false, Bool.and_true]

/-- The members of a hold set after the holders of a list have left (R65, R66, R186). -/
theorem State.dropHolders_has (l : List (Fin 32)) (s : State) (i : Fin 8) (y : Holder) :
    (l.foldl State.dropHolder s).switches[i].holds.has y =
      (s.switches[i].holds.has y && !l.any fun n => s.holdsSwitch n i && decide (y = .e n)) := by
  induction l generalizing s with
  | nil => simp
  | cons n l ih =>
    have same (m : Fin 32) : (s.dropHolder n).holdsSwitch m i = s.holdsSwitch m i := by
      rw [s.dropHolder_frame n]
      rfl
    simp only [List.foldl_cons, List.any_cons, ih, s.dropHolder_has, same, Bool.not_or, Bool.and_assoc]

/-- What the departure of holders leaves alone, and that it leaves legal switches legal (R58, R65, R186). -/
theorem State.dropHolders_frame (l : List (Fin 32)) (s : State) :
    l.foldl State.dropHolder s = { s with switches := (l.foldl State.dropHolder s).switches } ∧
    (∀ i : Fin 8, (l.foldl State.dropHolder s).switches[i].config = s.switches[i].config) ∧
    (s.switchesLegal → (l.foldl State.dropHolder s).switchesLegal) := by
  induction l generalizing s with
  | nil => exact ⟨rfl, fun _ => rfl, id⟩
  | cons n l ih =>
    obtain ⟨hframe, hconfig, hlegal⟩ := ih (s.dropHolder n)
    rw [List.foldl_cons]
    refine ⟨?_, fun i => (hconfig i).trans ?_, fun h => hlegal fun i => ?_⟩
    · rw [hframe, s.dropHolder_frame n]
    · rw [State.dropHolder_switch]
      split
      · exact Switch.leave_config _ _
      · rfl
    · rw [State.dropHolder_switch]
      split
      · exact (h i).leave _
      · exact h i

/-- The holders of all entries have left, and every entry is OFF (R66, R186). -/
theorem State.entriesReset_holdsKept (s : State) {l : List (Fin 32)} (hl : ∀ n, n ∈ l) :
    HoldsKept s { l.foldl State.dropHolder s with entries := Vector.replicate 32 Entry.default } := by
  obtain ⟨hframe, hconfig, hlegal⟩ := s.dropHolders_frame l
  have has := State.dropHolders_has l s
  generalize l.foldl State.dropHolder s = t at *
  have others (i : Fin 8) (y : Holder) (hy : ∀ n, y ≠ .e n) : t.switches[i].holds.has y = s.switches[i].holds.has y := by
    rw [has]
    simp [hy]
  rw [hframe]
  refine ⟨⟨hlegal, fun he i n => ?_, fun hx i => ?_⟩, rfl, rfl, rfl, fun hk i k => ?_⟩
  · have member : s.switches[i].holds.has (.e n) = s.holdsSwitch n i := he i n
    have off : (Vector.replicate 32 Entry.default)[n].state.active = false := by simp [Entry.default, EntryState.active]
    dsimp only
    rw [has, member, off, Bool.false_and]
    cases hn : s.holdsSwitch n i with
    | false => rfl
    | true =>
      rw [Bool.true_and, Bool.not_eq_false', List.any_eq_true]
      exact ⟨n, hl n, by rw [hn]; simp⟩
  · dsimp only
    rw [others i _ (by simp), hconfig]
    exact hx i
  · dsimp only
    rw [others i _ (by simp)]
    exact hk i k

theorem State.softReset_holdsKept (s : State) : HoldsKept s s.softReset := by
  have dropped := s.entriesReset_holdsKept (List.mem_finRange (n := 32))
  unfold State.softReset
  generalize (List.finRange 32).foldl State.dropHolder s = s1 at dropped
  dsimp only
  generalize hs : ({ ({ s1 with entries := Vector.replicate 32 Entry.default } : State).modScan ScanUnit.softReset with
    records := _ } : State) = s3
  have invalid : Keeps { s1 with entries := Vector.replicate 32 Entry.default } s3 := by
    subst hs
    exact Keeps.other rfl
  have indicators := Keeps.foldl (f := fun t i => t.setIndicator i false) (fun t i => t.setIndicator_keeps i false)
    (List.finRange 8) s3
  generalize (List.finRange 8).foldl (fun t i => t.setIndicator i false) s3 = s4 at *
  exact (dropped.trans (invalid.trans indicators).holdsKept).trans ⟨⟨id, id, id⟩, rfl, rfl, rfl, id⟩

theorem softResetBody_holdsKept (s : State) : HoldsKept s (softResetBody s).state := by
  unfold softResetBody
  split
  · exact .refl s
  split
  case h_5 => exact s.softReset_holdsKept
  all_goals exact .refl s

/-! ### A stored lock comes and goes (R67, R141, R142) -/

/-- A K-holder that joins is no E-holder and not X (R65). -/
theorem State.joinMask_switchesKept (s : State) (k : Fin 4) (m : Byte) : SwitchesKept s (s.joinMask (.k k) m) := by
  have switch (i : Fin 8) : (s.joinMask (.k k) m).switches[i] =
      if m.getLsbD i.val then s.switches[i].join (.k k) else s.switches[i] := by
    simp only [State.joinMask_switches, Fin.getElem_fin, Vector.getElem_ofFn]
  refine ⟨fun h i => ?_, fun h i n => ?_, fun h i => ?_⟩
  all_goals rw [switch]
  · split
    · exact (h i).join _
    · exact h i
  · split
    · rw [Switch.join_holds, HoldSet.has_or, h i n]
      simp
    · exact h i n
  · split
    · rw [Switch.join_holds, Switch.join_config, HoldSet.has_or, h i]
      simp
    · exact h i

/-- A K-holder that leaves is no E-holder and not X (R65). -/
theorem State.leaveMask_switchesKept (s : State) (k : Fin 4) (m : Byte) : SwitchesKept s (s.leaveMask (.k k) m) := by
  have switch (i : Fin 8) : (s.leaveMask (.k k) m).switches[i] =
      if m.getLsbD i.val then s.switches[i].leave (.k k) else s.switches[i] := by
    simp only [State.leaveMask_switches, Fin.getElem_fin, Vector.getElem_ofFn]
  refine ⟨fun h i => ?_, fun h i n => ?_, fun h i => ?_⟩
  all_goals rw [switch]
  · split
    · exact (h i).leave _
    · exact h i
  · split
    · rw [Switch.leave_holds, HoldSet.has_andNot, h i n]
      simp
    · exact h i n
  · split
    · rw [Switch.leave_holds, Switch.leave_config, HoldSet.has_andNot, h i]
      simp
    · exact h i

/-- Slot `k` comes to hold the switches of a mask, and its K-holder joins them (R67). -/
theorem State.kHolders_join {s : State} {k : Fin 4} {f : FaultMemory} {m : Byte} (hk : s.fault.slots[k].holdMask = 0)
    (hm : f.slots[k].holdMask = m) (ho : ∀ j : Fin 4, j ≠ k → f.slots[j].holdMask = s.fault.slots[j].holdMask)
    (h : s.kHoldersExact) : ({ s with fault := f }.joinMask (.k k) m).kHoldersExact := by
  rw [State.kHoldersExact_iff] at h ⊢
  intro i j
  simp only [State.joinMask_switches, State.joinMask_fault, Fin.getElem_fin, Vector.getElem_ofFn]
  have held : (if m.getLsbD i.val then s.switches[i].join (.k k) else s.switches[i]).holds.has (.k j) =
      (s.switches[i].holds.has (.k j) || (m.getLsbD i.val && decide (j = k))) := by
    cases m.getLsbD i.val <;> simp [HoldSet.has_or]
  refine held.trans ?_
  rw [h i j]
  by_cases hj : j = k
  · subst hj
    rw [hk]
    simpa using congrArg (fun x : Byte => x.getLsbD i.val) hm.symm
  · simpa [hj] using congrArg (fun x : Byte => x.getLsbD i.val) (ho j hj).symm

/-- Slot `k` ceases to hold the switches of its mask, and its K-holder leaves them (R67). -/
theorem State.kHolders_leave {s : State} {k : Fin 4} {f : FaultMemory} {m : Byte} (hk : f.slots[k].holdMask = 0)
    (hm : s.fault.slots[k].holdMask = m) (ho : ∀ j : Fin 4, j ≠ k → f.slots[j].holdMask = s.fault.slots[j].holdMask)
    (h : s.kHoldersExact) : ({ s with fault := f }.leaveMask (.k k) m).kHoldersExact := by
  rw [State.kHoldersExact_iff] at h ⊢
  intro i j
  simp only [State.leaveMask_switches, State.leaveMask_fault, Fin.getElem_fin, Vector.getElem_ofFn]
  have held : (if m.getLsbD i.val then s.switches[i].leave (.k k) else s.switches[i]).holds.has (.k j) =
      (s.switches[i].holds.has (.k j) && !(m.getLsbD i.val && decide (j = k))) := by
    cases m.getLsbD i.val <;> simp [HoldSet.has_andNot]
  refine held.trans ?_
  rw [h i j]
  by_cases hj : j = k
  · subst hj
    have free : f.slots[j.val].holdMask = 0 := hk
    rw [hm, free]
    simp
  · simpa [hj] using congrArg (fun x : Byte => x.getLsbD i.val) (ho j hj).symm

/-- The item in flight ends and the next starts (R140). -/
theorem State.finishHead_holdsKept (s : State) : HoldsKept s (s.modFault FaultMemory.finishHead) :=
  .ofHoldMasks (f := s.fault.finishHead) s.fault.finishHead_restore s.fault.finishHead_holdMask

/-- A program that ends makes its slot VALID, and the K-holder joins (R67, R141). -/
theorem programComplete_holdsKept (s : State) : HoldsKept s (programComplete s) := by
  unfold programComplete
  split
  · exact .refl s
  rename_i k _
  split
  · rename_i e m x b hs
    have joined : HoldsKept s ((s.modFault fun f => (f.modMedium k fun d => { d with body := .whole b }).setSlot k
        (.valid { entry := e, mask := m, serial := x } (some b))).joinMask (.k k) m) := by
      refine ⟨(SwitchesKept.modFault s _).trans (State.joinMask_switchesKept _ k m), rfl, rfl, rfl,
        State.kHolders_join (by rw [hs]; rfl) ?_ fun j hj => ?_⟩
      · simp only [FaultMemory.setSlot, getElem_set_fin, if_true]
        rfl
      · simp only [FaultMemory.setSlot, FaultMemory.modMedium, getElem_set_fin, hj.symm, if_false]
    exact (joined.trans (Keeps.post _ _ _ _ _).holdsKept).trans (State.finishHead_holdsKept _)
  all_goals exact .refl s

/-- The messages of an erase completion keep, whenever each is taken (R142; log 4). -/
theorem State.announceClear_keeps (s : State) (k : Fin 4) (n : Fin 32) (engine : Fin 3) (later : Bool) :
    Keeps s (s.announceClear k n engine later) := by
  have first : Keeps s (if engine = 0 then s.lockCleared n else s) := by
    split
    · exact s.lockCleared_keeps n
    · exact .refl s
  unfold State.announceClear
  dsimp only
  generalize (if engine = 0 then s.lockCleared n else s) = s1 at *
  have second : Keeps s1 (if later then s1.send (.store n) else s1.unpin n) := by
    split
    · exact s1.sent_keeps _
    · exact .unpin s1 n
  generalize (if later then s1.send (.store n) else s1.unpin n) = s2 at *
  have posted : Keeps s2 (s2.postLockCleared k n) := Keeps.post _ _ _ _ _
  generalize s2.postLockCleared k n = s3 at *
  refine ((first.trans second).trans posted).trans ?_
  split
  · exact s3.lockCleared_keeps n
  · split
    · exact s3.sent_keeps _
    · exact .refl s3

/-- An erase that ends empties its slot, and the K-holder leaves (R67, R142). -/
theorem eraseComplete_holdsKept (s : State) : HoldsKept s (eraseComplete s) := by
  unfold eraseComplete
  split
  · rename_i k _
    split
    · rename_i h _ hs
      have left : HoldsKept s ((s.modFault fun f => (f.modMedium k fun d => { d with mark := .blank }).setSlot k
          (.empty false)).leaveMask (.k k) h.mask) := by
        refine ⟨(SwitchesKept.modFault s _).trans (State.leaveMask_switchesKept _ k h.mask), rfl, rfl, rfl,
          State.kHolders_leave ?_ (by rw [hs]; rfl) fun j hj => ?_⟩
        · simp only [FaultMemory.setSlot, getElem_set_fin, if_true]
          rfl
        · simp only [FaultMemory.setSlot, FaultMemory.modMedium, getElem_set_fin, hj.symm, if_false]
      have drawn := left.trans (Keeps.draw _ Config.freeOrder 5).holdsKept
      exact (drawn.trans (State.announceClear_keeps _ k h.entry _ _).holdsKept).trans (State.finishHead_holdsKept _)
    all_goals exact .refl s
  all_goals exact .refl s

/-! ### Every step but those of a reset and what follows it -/

/-- The steps of a reset, of its end and of the restore (R148, R182, R183). -/
def isStartUp (c : Instr) : Bool :=
  match c with
  | .powerOnReset | .pinReset | .resetEnd _ _ _ | .restoreSlotSettled | .restoreComplete => true
  | _ => false

theorem exec_deep_holdsKept {c : Instr} {s t : State} (hd : isDeep c = true) (hc : isStartUp c = false)
    (h : exec c s = .next t) : HoldsKept s t := by
  cases c <;> cases hd <;> cases hc <;> cases h
  case loadSwitch => exact takeCommand_holdsKept (loadSwitchBody_holdsKept s)
  case loadSequence => exact takeCommand_holdsKept (loadSequenceBody_holdsKept s)
  case softReset => exact takeCommand_holdsKept (softResetBody_holdsKept s)
  case programComplete => exact awake_holdsKept (programComplete_holdsKept s)
  case eraseComplete => exact awake_holdsKept (eraseComplete_holdsKept s)

theorem exec_holdsKept {c : Instr} {s t : State} (hc : isStartUp c = false) (h : exec c s = .next t) : HoldsKept s t := by
  cases hd : isDeep c with
  | false => exact (exec_keeps hd h).holdsKept
  | true => exact exec_deep_holdsKept hd hc h

/-! ### The restore (R148, R183) -/

/-- A slot that the restore settles moves no E-holder and not X (R148). -/
theorem State.settleSlot_switchesKept (s : State) (k : Fin 4) : SwitchesKept s (s.settleSlot k) := by
  unfold State.settleSlot
  dsimp only
  split
  · exact ((SwitchesKept.modFault s _).trans (State.joinMask_switchesKept _ k _)).trans ⟨id, id, id⟩
  all_goals exact ⟨id, id, id⟩

theorem restoreSlotSettled_switchesKept (s : State) : SwitchesKept s (restoreSlotSettled s) := by
  unfold restoreSlotSettled
  split
  · exact .refl s
  · split
    · exact s.settleSlot_switchesKept _
    · exact .refl s

theorem restoreComplete_switchesKept (s : State) : SwitchesKept s (restoreComplete s) := by
  unfold restoreComplete
  split
  · exact .refl s
  · rename_i j _
    have settled : SwitchesKept s (s.settleFrom j) := .foldl State.settleSlot_switchesKept _ s
    exact settled.trans ⟨id, id, id⟩

theorem resetEnd_switchesKept (addr1 addr0 tripLow : Bool) (s : State) : SwitchesKept s (resetEnd addr1 addr0 tripLow s) := by
  unfold resetEnd
  split
  · exact ⟨id, id, id⟩
  · exact .refl s

/-! ### Resets (R182) -/

theorem State.assertReset_switch (s : State) (i : Fin 8) : s.assertReset.switches[i] = Switch.default := by
  change (Vector.replicate 8 Switch.default)[i] = _
  simp

theorem State.assertReset_slot (s : State) (k : Fin 4) : s.assertReset.fault.slots[k] = .empty false := by
  change (Vector.replicate 4 (SlotView.empty false))[k] = _
  simp

theorem State.assertReset_entry (s : State) (n : Fin 32) : s.assertReset.entries[n] = Entry.default := by
  change (Vector.replicate 32 Entry.default)[n] = _
  simp

/-- In reset every switch is OFF and held by nobody (R70, R182). -/
theorem State.assertReset_switchesKept (s : State) : SwitchesKept s s.assertReset := by
  refine ⟨fun _ i => ?_, fun _ i n => ?_, fun _ i => ?_⟩
  · rw [s.assertReset_switch]
    exact Switch.default_legal
  · rw [s.assertReset_switch, s.assertReset_entry]
    exact HoldSet.has_zero _
  · rw [s.assertReset_switch]
    exact HoldSet.has_zero _

/-! ### Every step -/

theorem awake_switchesKept {s : State} {f : State → State} (h : SwitchesKept s (f s)) : SwitchesKept s (awake f s) := by
  unfold awake
  split
  · exact .refl s
  · exact h

theorem exec_startUp_switchesKept {c : Instr} {s t : State} (hc : isStartUp c = true) (h : exec c s = .next t) :
    SwitchesKept s t := by
  cases c <;> cases hc <;> cases h
  case powerOnReset => exact s.assertReset_switchesKept
  case pinReset => exact s.assertReset_switchesKept
  case resetEnd a b low => exact resetEnd_switchesKept a b low s
  case restoreSlotSettled => exact awake_switchesKept (restoreSlotSettled_switchesKept s)
  case restoreComplete => exact awake_switchesKept (restoreComplete_switchesKept s)

/-- Every step of the table keeps the switches legal, and the E-holders and X exact (R55 to R68). -/
theorem exec_switchesKept {c : Instr} {s t : State} (h : exec c s = .next t) : SwitchesKept s t := by
  cases hc : isStartUp c with
  | false => exact (exec_holdsKept hc h).toSwitchesKept
  | true => exact exec_startUp_switchesKept hc h

/-- A step is the execution of the command at the front, and idle on an empty queue. -/
theorem step_switchesKept {s t : State} (h : step s = .next t) : SwitchesKept s t := by
  unfold step at h
  split at h
  · cases h
    exact .refl s
  · rename_i c rest _
    have popped : SwitchesKept s { s with pending := rest } := ⟨id, id, id⟩
    exact popped.trans (exec_switchesKept h)

/-- Settles O53: every step keeps the switches legal, and a legal switch is gated as R55 asks. -/
theorem switchesStayLegal : Obligations.SwitchesStayLegal := by
  intro s t hs h
  have legal := (step_switchesKept h).switches hs
  exact ⟨legal, fun i hi => (legal i).gate hi⟩

/-- Settles O55: the two halves of `step_switchesKept` that say who holds. -/
theorem holdersStayExact : Obligations.HoldersStayExact :=
  ⟨fun _ _ hs h => (step_switchesKept h).eHolders hs, fun _ _ hs h => (step_switchesKept h).xHolder hs⟩

end Sys2Proof.Machine
end

section
/-! SUPPORT. What stands still in a part that is not ready (R182 to R184), and the K-holders through a reset and the restore
(R67, R148). -/

namespace Sys2Proof.Machine

/-! ### What `startingClean` reads -/

/-- What `startingClean` reads of a state. -/
def State.resting (s : State) :
    Bool × Bool × Option Nat × Option OpPhase × Vector SlotView 4 × SeqState × ScanMode × Bool × Vector EntryState 32 :=
  (s.inReset, s.ready, s.fault.restore, s.fault.phase, s.fault.slots, s.seq.state, s.scan.mode, s.scan.scanning,
    s.entries.map Entry.state)

/-- It reads nothing else. -/
theorem State.startingClean_of_resting {s t : State} (h : t.resting = s.resting) (hs : s.startingClean) :
    t.startingClean := by
  simp only [State.resting, Prod.mk.injEq] at h
  obtain ⟨hi, hy, hr, hp, hv, hq, hm, hc, he⟩ := h
  have entry (n : Fin 32) : t.entries[n].state = s.entries[n].state := by
    simpa using congrArg (fun v : Vector EntryState 32 => v[n]) he
  obtain ⟨h1, h2, h3⟩ := hs
  refine ⟨by rw [hi, hy, hr]; exact h1, by rw [hr, hy]; exact h2, fun hn => ?_⟩
  obtain ⟨hseq, hmode, hscan, hphase, hoff, hslots⟩ := h3 (hy ▸ hn)
  refine ⟨hq.trans hseq, hm.trans hmode, hc.trans hscan, hp.trans hphase, fun n => (entry n).trans (hoff n), ?_⟩
  rw [hr, hv]
  exact hslots

/-- A ready part is out of reset and restores nothing, so that a step which leaves that leaves it clean (R182, R183). -/
theorem HoldsKept.startingClean_of_ready {s t : State} (h : HoldsKept s t) (hr : s.ready = true) (hs : s.startingClean) :
    t.startingClean := by
  obtain ⟨h1, h2, _⟩ := hs
  refine ⟨by rw [h.inReset, h.ready, h.restore]; exact h1, by rw [h.restore, h.ready]; exact h2, fun hn => ?_⟩
  rw [h.ready, hr] at hn
  cases hn

/-! ### Steps taken while the part is not ready -/

theorem takeCommand_resting {s : State} {body : State → Reply} (h : (body s).state.resting = s.resting) :
    (takeCommand body s).resting = s.resting := by
  unfold takeCommand
  split
  · exact h
  · rfl

theorem takeWrite_resting {s : State} {a : Byte} {f : State → State} (h : (f s).resting = s.resting) :
    (takeWrite a f s).resting = s.resting := by
  unfold takeWrite
  split
  · exact h
  · rfl

theorem awake_resting {s : State} {f : State → State} (h : (f s).resting = s.resting) :
    (awake f s).resting = s.resting := by
  unfold awake
  split
  · rfl
  · exact h

/-- A page write reaches a staging record or the written derived configurations (R176). -/
theorem State.writePage_resting (s : State) (page part off : Nat) (b : Byte) :
    (s.writePage page part off b).resting = s.resting := by
  unfold State.writePage
  repeat' split
  all_goals rfl

theorem State.writeRegister_resting (s : State) (a : Nat) (b : Byte) : (s.writeRegister a b).resting = s.resting := by
  unfold State.writeRegister
  repeat' split
  all_goals first
    | exact s.writePage_resting _ _ _ _
    | rfl

/-- The steps of the port move the port alone, whatever branch they take (R167 to R171). -/
theorem portStep_resting (s : State) :
    (∀ v, (pointerWrite v s).resting = s.resting) ∧ (∀ v, (addressByte v s).resting = s.resting) ∧
    (∀ service ack, (serveByte service ack s).resting = s.resting) ∧
    (∀ service ack, (fieldSnapshot service ack s).resting = s.resting) ∧ (transferTimeout s).resting = s.resting ∧
    ∀ v, (registerWrite v s).resting = s.resting := by
  have serve (service ack : Bool) : (serveByte service ack s).resting = s.resting := by
    unfold serveByte
    dsimp only
    repeat' split
    all_goals rfl
  refine ⟨fun v => ?_, fun v => ?_, serve, fun service ack => ?_, ?_, fun v => ?_⟩
  · unfold pointerWrite
    split <;> rfl
  · unfold addressByte
    split <;> rfl
  · unfold fieldSnapshot
    split
    · exact serve service ack
    · rfl
  · unfold transferTimeout
    split <;> rfl
  · unfold registerWrite
    split
    · exact s.writeRegister_resting _ _
    · rfl

/-- A command refused with NOT_READY changes nothing that the port does not show (R174, R184). -/
theorem refused_resting {s : State} {body : State → Reply} (h : body s = s.refuse .notReady) :
    (takeCommand body s).resting = s.resting := by
  refine takeCommand_resting ?_
  rw [h]
  rfl

/-- With no operation in flight none goes on (R140). -/
theorem FaultMemory.idle_steps {f : FaultMemory} (h : f.phase = none) :
    (∀ p, f.programming p = none) ∧ ∀ p, f.erasingNow p = none := by
  constructor
  all_goals
    intro p
    first
      | unfold FaultMemory.programming
      | unfold FaultMemory.erasingNow
    split
    · rfl
    · rw [if_neg (by simp [h])]

/-- With every entry OFF the messages of an erase completion move none (R46). -/
theorem State.receiveAll_resting {s : State} (hoff : ∀ n : Fin 32, s.entries[n].state = .off) :
    s.receiveAll.resting = s.resting := by
  have each (l : List ClearMessage) (t : State) (ht : ∀ n : Fin 32, t.entries[n].state = .off) :
      (l.foldl State.receive t).resting = t.resting := by
    induction l generalizing t with
    | nil => rfl
    | cons m l ih =>
      rw [List.foldl_cons]
      cases m with
      | store n => exact ih (t.unpin n) ht
      | engine n =>
        have still : t.receive (.engine n) = t := if_neg (by rw [ht n]; simp)
        rw [still]
        exact ih t ht
  exact each _ _ hoff

theorem State.takeFailures_resting {s : State} (h : s.seq.state = .notReady) : s.takeFailures.resting = s.resting := by
  rw [State.takeFailures_idle (by simp [h])]
  rfl

theorem State.tick_resting (s : State) : s.tick.resting = s.resting := by
  have entries : (s.entries.map Entry.tick).map Entry.state = s.entries.map Entry.state := by
    rw [Vector.map_map]
    rfl
  simp only [State.resting, State.tick_entries, entries]
  rfl

section notReady
variable {s : State} (hseq : s.seq.state = .notReady) (hmode : s.scan.mode = .stopped) (hscan : s.scan.scanning = false)
  (hphase : s.fault.phase = none) (hoff : ∀ n : Fin 32, s.entries[n].state = .off)

include hseq in
/-- In NOT_READY the Sequencer has no step whose timer could expire (R76, R93). -/
theorem sequencerExpiries_notReady : stepLimitExpiry s = s ∧ dischargeExpiry s = s ∧ settleExpiry s = s := by
  refine ⟨?_, ?_, ?_⟩
  · simp only [stepLimitExpiry, hseq]
  · simp only [dischargeExpiry, hseq]
  · simp only [settleExpiry, hseq, ite_self]

include hseq in
theorem rampExpiry_resting (i : Fin 8) : (rampExpiry i s).resting = s.resting := by
  unfold rampExpiry
  split
  · dsimp only
    split
    · exact State.takeFailures_resting (s := ((s.failSwitch i).draw Config.freeOrder 1).2) hseq
    · rfl
  · rfl

include hmode hscan in
/-- STOPPED and IDLE, the Scan Unit takes no trigger and has no step (R101, R106). -/
theorem scanEvents_stopped : syncEdge s = s ∧ frameTimerExpiry s = s ∧ scanStepComplete s = s ∧
    ∀ x, scanStepSample x s = s := by
  refine ⟨if_neg (by simp [hmode]), if_neg (by simp [hmode]), ?_, fun x => if_neg (by simp [hscan])⟩
  unfold scanStepComplete
  split
  · rfl
  · exact if_neg (by simp [hscan])

include hoff in
/-- An entry in OFF has no timer to expire (R22). -/
theorem entryExpiries_off (n : Fin 32) : dwellExpiry n s = s ∧ recoveryExpiry n s = s := by
  refine ⟨?_, if_neg (by rw [hoff n]; simp)⟩
  unfold dwellExpiry
  split
  · exact if_neg (by rw [hoff n]; simp)
  · rfl

include hphase in
/-- With no operation in flight no phase ends (R140). -/
theorem faultEvents_idle : s.fault.programPhaseEnd = s.fault ∧ s.fault.erasePhaseEnd = s.fault ∧
    s.fault.cleanupComplete = s.fault ∧ programComplete s = s ∧ eraseComplete s = s := by
  obtain ⟨hprogram, herase⟩ := FaultMemory.idle_steps hphase
  refine ⟨?_, ?_, ?_, ?_, ?_⟩
  · simp only [FaultMemory.programPhaseEnd, hprogram]
  · simp only [FaultMemory.erasePhaseEnd, herase]
  · simp only [FaultMemory.cleanupComplete, herase]
  · simp only [programComplete, hprogram]
  · simp only [eraseComplete, herase]

include hseq hoff in
theorem timeBaseTick_resting : (timeBaseTick s).resting = s.resting := by
  have taken := State.receiveAll_resting hoff
  have quiet : s.receiveAll.seq.state = .notReady := (congrArg (fun r => r.2.2.2.2.2.1) taken).trans hseq
  exact ((State.tick_resting _).trans (State.takeFailures_resting quiet)).trans taken

end notReady

/-- Before the part is ready every step but those of a reset and the restore leaves it resting (R182 to R184). -/
theorem exec_resting {c : Instr} {s t : State} (hs : s.startingClean) (hr : s.ready = false) (hc : isStartUp c = false)
    (h : exec c s = .next t) : t.resting = s.resting := by
  obtain ⟨_, _, h3⟩ := hs
  obtain ⟨hseq, hmode, hscan, hphase, hoff, _⟩ := h3 hr
  obtain ⟨hpointer, haddress, hserve, hfield, htimeout, hregister⟩ := portStep_resting s
  obtain ⟨hlimit, hdischarge, hsettle⟩ := sequencerExpiries_notReady hseq
  obtain ⟨hsync, hframe, hstep, hsample⟩ := scanEvents_stopped hmode hscan
  obtain ⟨hprogramPhase, herasePhase, hcleanup, hprogram, herase⟩ := faultEvents_idle hphase
  have notReady : (!s.ready) = true := by simp [hr]
  cases c <;> cases hc <;> cases h
  case popEvent =>
    refine takeCommand_resting ?_
    unfold popEventBody
    split <;> rfl
  case clearLoss => exact takeCommand_resting rfl
  case badCommand code =>
    split
    · rfl
    · exact takeCommand_resting rfl
  case alertLevelWrite v =>
    refine takeWrite_resting ?_
    unfold writeAlertLevel
    split <;> rfl
  case scanModeWrite v =>
    refine takeWrite_resting ?_
    unfold writeScanMode
    split
    · rfl
    · rw [if_pos (by simp [hr])]
  case framePeriodLowWrite v => exact takeWrite_resting (by simp [writePeriodLow, hr])
  case framePeriodHighWrite v => exact takeWrite_resting (by simp [writePeriodHigh, hr])
  case registerWrite v => exact awake_resting (hregister v)
  case pointerWrite v => exact awake_resting (hpointer v)
  case addressByte v => exact awake_resting (haddress v)
  case fieldSnapshot service ack => exact awake_resting (hfield service ack)
  case dataByteServed service ack => exact awake_resting (hserve service ack)
  case transferEnd => exact awake_resting rfl
  case transferTimeout => exact awake_resting htimeout
  case tripFilterAssert low =>
    refine awake_resting ?_
    unfold tripAssert
    dsimp only
    repeat' split
    all_goals rfl
  case tripFilterRelease =>
    refine awake_resting ?_
    unfold tripRelease
    split <;> rfl
  case syncEdge => exact awake_resting (by rw [hsync])
  case frameTimerExpiry => exact awake_resting (by rw [hframe])
  case scanStepSample a b c => exact awake_resting (by rw [hsample])
  case scanStepComplete => exact awake_resting (by rw [hstep])
  case dwellExpiry n => exact awake_resting (by rw [(entryExpiries_off hoff n).1])
  case recoveryExpiry n => exact awake_resting (by rw [(entryExpiries_off hoff n).2])
  case rampTimerExpiry i => exact awake_resting (rampExpiry_resting hseq i)
  case stepLimitExpiry => exact awake_resting (by rw [hlimit])
  case dischargeTimerExpiry => exact awake_resting (by rw [hdischarge])
  case settleTimerExpiry => exact awake_resting (by rw [hsettle])
  case programPhaseEnd => exact awake_resting (by rw [State.modFault, hprogramPhase])
  case programComplete => exact awake_resting (by rw [hprogram])
  case erasePhaseEnd => exact awake_resting (by rw [State.modFault, herasePhase])
  case eraseComplete => exact awake_resting (by rw [herase])
  case cleanupEraseComplete => exact awake_resting (by rw [State.modFault, hcleanup])
  case timeBaseTick => exact awake_resting (timeBaseTick_resting hseq hoff)
  all_goals exact refused_resting (if_pos notReady)

theorem exec_startingClean {c : Instr} {s t : State} (hc : isStartUp c = false) (h : exec c s = .next t)
    (hs : s.startingClean) : t.startingClean := by
  cases hr : s.ready with
  | true => exact (exec_holdsKept hc h).startingClean_of_ready hr hs
  | false => exact State.startingClean_of_resting (exec_resting hs hr hc h) hs

/-! ### Reset, its end and the restore (R148, R182, R183) -/

/-- The passage keeps the part clean before it is ready, and the K-holders exact with that. -/
def StartKept (s t : State) : Prop := s.startingClean → s.kHoldersExact → t.startingClean ∧ t.kHoldersExact

theorem State.assertReset_startKept (s : State) : StartKept s s.assertReset := by
  refine fun _ _ => ⟨⟨fun _ => ⟨rfl, rfl⟩, fun h => (by cases h), fun _ => ⟨rfl, rfl, rfl, rfl, fun n => ?_, fun k _ => ?_⟩⟩,
    fun i k => ?_⟩
  · rw [s.assertReset_entry]
    rfl
  · exact s.assertReset_slot k
  · rw [s.assertReset_switch, s.assertReset_slot]
    exact HoldSet.has_zero _

theorem resetEnd_startKept (addr1 addr0 tripLow : Bool) (s : State) : StartKept s (resetEnd addr1 addr0 tripLow s) := by
  unfold resetEnd
  split
  · rename_i hreset
    rintro ⟨h1, _, h3⟩ hk
    obtain ⟨hr, hrestore⟩ := h1 hreset
    obtain ⟨hseq, hmode, hscan, hphase, hoff, hslots⟩ := h3 hr
    rw [hrestore] at hslots
    exact ⟨⟨fun h => (by cases h), fun _ => hr, fun _ => ⟨hseq, hmode, hscan, hphase, hoff, hslots⟩⟩, hk⟩
  · exact fun hs hk => ⟨hs, hk⟩

theorem State.settleSlot_frame (s : State) (k : Fin 4) : (s.settleSlot k).inReset = s.inReset ∧
    (s.settleSlot k).seq = s.seq ∧ (s.settleSlot k).scan = s.scan := by
  unfold State.settleSlot
  dsimp only
  split <;> exact ⟨rfl, rfl, rfl⟩

/-- The K-holder of a slot that the restore makes VALID joins the switches of its mask (R67, R148). -/
theorem State.settleSlot_kHolders {s : State} {k : Fin 4} (hk : s.fault.slots[k] = .empty false) (h : s.kHoldersExact) :
    (s.settleSlot k).kHoldersExact := by
  have free : s.fault.slots[k].holdMask = 0 := by
    rw [hk]
    rfl
  have others (v : SlotView) (j : Fin 4) (hj : j ≠ k) : (s.fault.setSlot k v).slots[j].holdMask =
      s.fault.slots[j].holdMask := by
    simp only [FaultMemory.setSlot, getElem_set_fin, hj.symm, if_false]
  have self (v : SlotView) : (s.fault.setSlot k v).slots[k].holdMask = v.holdMask := by
    simp only [FaultMemory.setSlot, getElem_set_fin, if_true]
  have unheld (v : SlotView) (hv : v.holdMask = 0) :
      (s.modFault fun f => { f.setSlot k v with restore := some (k.val + 1) }).kHoldersExact := by
    refine (HoldsKept.ofHoldMasks (f := { s.fault.setSlot k v with restore := s.fault.restore }) rfl fun j => ?_).kHolders h
    by_cases hj : j = k
    · rw [hj, free]
      exact (self v).trans hv
    · exact others v j hj
  unfold State.settleSlot
  rcases s.fault.medium[k].restored_cases with ⟨c, hv⟩ | ⟨x, b, hv⟩
  · rw [hv]
    cases c <;> exact unheld _ rfl
  · rw [hv]
    exact State.kHolders_join (f := { s.fault.setSlot k (.valid x b) with restore := some (k.val + 1) }) free
      (self _) (others _) h

/-- The restore settles its next slot, and the part stays clean, with the K-holders exact (R67, R148). -/
theorem State.settleSlot_startKept {s : State} {k : Fin 4} (h : s.Restoring k.val) : StartKept s (s.settleSlot k) := by
  rintro ⟨h1, _, h3⟩ hk
  obtain ⟨hseq, hmode, hscan, hphase, hoff, hslots⟩ := h3 h.notReady
  rw [h.restore] at hslots
  obtain ⟨hi, hq, hc⟩ := s.settleSlot_frame k
  have next := State.settleSlot_restoring h
  refine ⟨⟨fun hr => ?_, fun _ => next.notReady, fun _ => ?_⟩, State.settleSlot_kHolders (hslots k (Nat.le_refl _)) hk⟩
  · have := (h1 (hi ▸ hr)).2
    rw [h.restore] at this
    cases this
  · rw [hq, hc, next.restore]
    refine ⟨hseq, hmode, hscan, next.idle, next.off, fun j hj => ?_⟩
    have hj : k.val + 1 ≤ j.val := hj
    have hne : k ≠ j := fun e => by
      rw [e] at hj
      omega
    rw [(s.settleSlot_aside k).fault]
    simp only [FaultMemory.settle, getElem_set_fin, hne, if_false]
    exact hslots j (by simp only [Option.getD_some]; omega)

theorem restoreSlotSettled_startKept (s : State) : StartKept s (restoreSlotSettled s) := by
  unfold restoreSlotSettled
  split
  · exact fun hs hk => ⟨hs, hk⟩
  · rename_i j hj
    split
    · rename_i hlt
      exact fun hs => State.settleSlot_startKept (k := ⟨j, hlt⟩) (hs.restoring hj) hs
    · exact fun hs hk => ⟨hs, hk⟩

/-- The restore settles what is left, and the part is ready (R183). -/
theorem restoreComplete_startKept (s : State) : StartKept s (restoreComplete s) := by
  intro hs hk
  cases hj : s.fault.restore with
  | none =>
    have : restoreComplete s = s := by
      unfold restoreComplete
      rw [hj]
    rw [this]
    exact ⟨hs, hk⟩
  | some j =>
    obtain ⟨w, hready, _, hfault⟩ := restoreComplete_fault hj
    have frame : (restoreComplete s).inReset = (s.settleFrom j).inReset ∧
        (restoreComplete s).switches = (s.settleFrom j).switches := by
      unfold restoreComplete
      rw [hj]
      exact ⟨rfl, rfl⟩
    obtain ⟨i, _, hrest, ⟨hclean, _, _⟩, hheld⟩ := State.settleFrom_keeps
      (P := fun t => t.startingClean ∧ t.kHoldersExact) (fun _ _ h ht => State.settleSlot_startKept h ht.1 ht.2)
      (hs.restoring hj) ⟨hs, hk⟩
    have restored : (restoreComplete s).fault.restore = none := by
      rw [hfault]
      exact FaultMemory.startHead_restore _
    refine ⟨⟨fun hr => ?_, fun hr => ?_, fun hr => ?_⟩, ?_⟩
    · rw [frame.1] at hr
      have := (hclean hr).2
      rw [hrest.restore] at this
      cases this
    · rw [restored] at hr
      cases hr
    · rw [hready] at hr
      cases hr
    · rw [State.kHoldersExact_iff] at hheld ⊢
      intro i k
      rw [frame.2, hfault, FaultMemory.startHead_holdMask]
      exact hheld i k

theorem awake_startKept {s : State} {f : State → State} (h : StartKept s (f s)) : StartKept s (awake f s) := by
  unfold awake
  split
  · exact fun hs hk => ⟨hs, hk⟩
  · exact h

theorem exec_startUp_startKept {c : Instr} {s t : State} (hc : isStartUp c = true) (h : exec c s = .next t) :
    StartKept s t := by
  cases c <;> cases hc <;> cases h
  case powerOnReset => exact s.assertReset_startKept
  case pinReset => exact s.assertReset_startKept
  case resetEnd a b low => exact resetEnd_startKept a b low s
  case restoreSlotSettled => exact awake_startKept (restoreSlotSettled_startKept s)
  case restoreComplete => exact awake_startKept (restoreComplete_startKept s)

/-! ### Every step -/

theorem exec_startKept {c : Instr} {s t : State} (h : exec c s = .next t) : StartKept s t := by
  cases hc : isStartUp c with
  | false => exact fun hs hk => ⟨exec_startingClean hc h hs, (exec_holdsKept hc h).kHolders hk⟩
  | true => exact exec_startUp_startKept hc h

/-- Settles O56: an empty queue moves nothing, and the command at the front is executed as above. -/
theorem kHoldersStayExact : Obligations.KHoldersStayExact := by
  intro s t hs hk h
  unfold step at h
  split at h
  · cases h
    exact ⟨hs, hk⟩
  · rename_i c rest _
    have popped : { s with pending := rest }.startingClean := hs
    exact exec_startKept h popped hk

end Sys2Proof.Machine
end

section
/-! SUPPORT. One switch by its tables, RESTART SWITCH, the trip line and LOAD SWITCH (R52 to R69). -/

namespace Sys2Proof.Machine

/-! ### The tables of one switch (R56 to R59, R65) -/

section tables
variable {w : Switch}

/-- Held by somebody, a switch that ramps, is ON or is TRIPPED is BLOCKED (R57, R58, R59). -/
theorem Switch.becomeHeld_blocked (h : w.state = .ramping ∨ w.state = .on ∨ w.state = .tripped) :
    w.becomeHeld = w.enter .blocked := by
  rcases h with h | h | h <;> simp only [Switch.becomeHeld, h]

/-- Any other stays as it is (R59). -/
theorem Switch.becomeHeld_still (h : w.state = .off ∨ w.state = .failed ∨ w.state = .blocked) : w.becomeHeld = w := by
  rcases h with h | h | h <;> simp only [Switch.becomeHeld, h]

/-- Held by nobody any more, a BLOCKED switch waits in TRIPPED or ramps, by its restart mode (R59). -/
theorem Switch.becomeFree_blocked (h : w.state = .blocked) :
    w.becomeFree = if w.config.isManual = true then w.enter .tripped else w.startRamp := by
  simp only [Switch.becomeFree, h]

/-- Any other stays as it is (R59). -/
theorem Switch.becomeFree_still (h : w.state ≠ .blocked) : w.becomeFree = w := by
  unfold Switch.becomeFree
  split <;> first
    | rfl
    | contradiction

theorem Switch.takeDemand_same (on : Bool) (h : w.demand = on) : w.takeDemand on = w := if_pos h

/-- Demand OFF turns the switch off, in whatever state (R56). -/
theorem Switch.takeDemand_off (h : w.demand = true) : w.takeDemand false = ({ w with demand := false } : Switch).enter .off := by
  simp [Switch.takeDemand, h]

/-- Demand ON makes a switch in OFF ramp, or BLOCKED where it is held (R56). -/
theorem Switch.takeDemand_on (h : w.demand = false) (hs : w.state = .off) : w.takeDemand true =
    if w.holds = 0 then ({ w with demand := true } : Switch).startRamp
    else ({ w with demand := true } : Switch).enter .blocked := by
  simp [Switch.takeDemand, h, hs]

end tables

/-- Settles O34: demand, join and leave by the state of the switch and by whether its hold set becomes non-empty or empty. -/
theorem switchMovesByTheTables : Obligations.SwitchMovesByTheTables := by
  intro w h ramp rest
  refine ⟨w.takeDemand_same true, w.takeDemand_same false, Switch.takeDemand_on, Switch.takeDemand_off,
    ⟨fun hz => if_neg hz, fun hz hs => ?_, fun hs => ?_⟩, ⟨fun hz => if_neg ?_, fun hz hv hs => ?_, fun hs => ?_⟩⟩
  · exact (if_pos hz).trans (Switch.becomeHeld_blocked (by exact hs))
  · exact (ite_congr rfl (fun _ => Switch.becomeHeld_still (by exact hs)) fun _ => rfl).trans (ite_self _)
  · rintro ⟨hn, hv⟩
    exact hz.elim hn fun hv' => hv' hv
  · refine (if_pos ⟨hz, hv⟩).trans ((Switch.becomeFree_blocked (by exact hs)).trans ?_)
    have manual : w.config.isManual = true ↔ w.config.restartMode = 1 := by simp [SwitchConfig.isManual]
    simp only [manual]
    rfl
  · exact (ite_congr rfl (fun _ => Switch.becomeFree_still (by exact hs)) fun _ => rfl).trans (ite_self _)

/-! ### RESTART SWITCH (R59, R60) -/

/-- RESTART SWITCH is refused outside TRIPPED and FAILED (R60). -/
theorem restartSwitchBody_refused {s : State} {i : Fin 8} (hr : s.ready = true) (hi : s.port.arg0.toNat = i.val)
    (h : s.switches[i].state = .off ∨ s.switches[i].state = .ramping ∨ s.switches[i].state = .on ∨
      s.switches[i].state = .blocked) : restartSwitchBody s = s.refuse .switchState := by
  unfold restartSwitchBody
  rw [numberBelow_some hi, if_neg (by simp [hr])]
  dsimp only
  rcases h with h | h | h | h <;> rw [h]

/-- In TRIPPED and FAILED it moves the switch (R59, R60). -/
theorem restartSwitchBody_taken {s : State} {i : Fin 8} (hr : s.ready = true) (hi : s.port.arg0.toNat = i.val)
    (h : s.switches[i].state = .tripped ∨ s.switches[i].state = .failed) :
    restartSwitchBody s = ⟨s.modSwitch i Switch.restart, .ok, 0⟩ := by
  unfold restartSwitchBody
  rw [numberBelow_some hi, if_neg (by simp [hr])]
  dsimp only
  rcases h with h | h <;> rw [h]

/-- Settles O33: the checks in their order, then one answer for each state of the switch. -/
theorem restartSwitchResults : Obligations.RestartSwitchResults := by
  intro s hs
  have taken : exec .restartSwitch s = .next (restartSwitchBody s).answer :=
    congrArg Host.Outcome.next (takeCommand_taken hs restartSwitchBody)
  rw [taken]
  refine ⟨fun hr => ?_, fun hr ha => ?_, fun i hr hi => ⟨fun h => ?_, fun h => ?_⟩⟩
  · simp [restartSwitchBody, hr, State.refuse, Reply.answer]
  · simp [restartSwitchBody, hr, numberBelow_none (n := 8) ha, State.refuse, Reply.answer]
  · rw [restartSwitchBody_refused hr hi h]
    rfl
  · rw [restartSwitchBody_taken hr hi h]
    refine ⟨fun hz => ?_, fun hz => ?_⟩
    · have ramps : s.switches[i].restart = s.switches[i].startRamp := if_pos hz
      simp only [State.modSwitch, ramps]
      rfl
    · have blocks : s.switches[i].restart = s.switches[i].enter .blocked := if_neg hz
      simp only [State.modSwitch, blocks]
      rfl

/-! ### The trip line (R68, R69) -/

theorem SwitchConfig.obeysTrip_iff (c : SwitchConfig) : c.obeysTrip = true ↔ c.tripResponse = 1 := by
  simp [SwitchConfig.obeysTrip]

/-- Settles O36: the filter by its seen state, and the event by whether the line has been low since the end of reset. -/
theorem tripLineChanges : Obligations.TripLineChanges := by
  intro s low hs moved
  have asserted : exec (.tripFilterAssert low) s = .next (tripAssert low s) := congrArg Host.Outcome.next (awake_of hs _)
  have released : exec .tripFilterRelease s = .next (tripRelease s) := congrArg Host.Outcome.next (awake_of hs _)
  have joined : ({ s with trip := { seen := true, lowAtResetEnd := false } } : State).tripHolds true =
      moved true fun w => w.join .x := by
    simp only [State.tripHolds, State.mapSwitches, SwitchConfig.obeysTrip_iff]
    rfl
  have left : ({ s with trip := { seen := false, lowAtResetEnd := false } } : State).tripHolds false =
      moved false fun w => w.leave .x := by
    simp only [State.tripHolds, State.mapSwitches, SwitchConfig.obeysTrip_iff]
    rfl
  rw [asserted, released]
  refine ⟨fun hseen => ⟨fun hn => ?_, fun hl ha => ?_, ?_⟩, fun hseen => ⟨?_, ?_⟩⟩
  · simp only [tripAssert, hseen, joined]
    rw [if_neg Bool.false_ne_true, if_neg (by simpa using hn)]
  · simp only [tripAssert, hseen, joined]
    rw [if_neg Bool.false_ne_true, if_pos (by simp [hl, ha])]
  · simp [tripRelease, hseen]
  · simp only [tripRelease, hseen, left, if_true]
  · simp [tripAssert, hseen]

/-! ### LOAD SWITCH (R52, R53) -/

/-- A step of a list in force names the switch (R52 check 4). -/
theorem Sequencer.lists_iff (q : Sequencer) (i : Fin 8) : q.lists i = true ↔ ∃ st ∈ q.upList ++ q.downList, st.switch = i := by
  simp [Sequencer.lists, or_and_right, exists_or]

/-- Check 5 in the words of R52. -/
theorem SwitchConfig.fails_iff (c : SwitchConfig) : c.fails = true ↔ c.enabled ≠ 0 ∧
    (17 < c.goodChannel.toNat ∨ c.rampTimeout = 0 ∨ c.dischargeTimeout = 0 ∨ 1 < c.restartMode.toNat ∨
      1 < c.tripResponse.toNat) := by
  simp [SwitchConfig.fails, SwitchConfig.isEnabled, numberBelow_isNone, Nat.succ_le_iff, or_assoc]

/-- The checks of LOAD SWITCH for a switch, in their order (R52). -/
theorem loadSwitchBody_of {s : State} {i : Fin 8} (hr : s.ready = true) (hi : s.port.arg0.toNat = i.val) :
    loadSwitchBody s =
      if s.switches[i].state ≠ .off then s.refuse .switchBusy
      else if (!s.switchStaging.isEnabled && s.seq.lists i) = true then s.refuse .switchBusy
      else if s.switchStaging.fails = true then s.refuse .badArgument
      else ⟨(s.modSwitch i fun w => w.loaded s.switchStaging s.trip.seen).loadIndicator i, .ok, 0⟩ := by
  unfold loadSwitchBody
  rw [numberBelow_some hi, if_neg (by simp [hr])]

section loaded
variable (s : State) (i : Fin 8) (c : SwitchConfig) (seen : Bool)

theorem State.loaded_switch : (s.modSwitch i fun w => w.loaded c seen).switches[i] = s.switches[i].loaded c seen := by
  rw [State.modSwitch_switches, getElem_set_fin, if_pos rfl]

/-- The indicator of a switch just loaded, and what the Sequencer is told of it (R53, R63, R64). -/
theorem State.loaded_setIndicator (v : Bool) : (s.modSwitch i fun w => w.loaded c seen).setIndicator i v =
    if s.switches[i].discharged = v then s.modSwitch i fun w => w.loaded c seen
    else (s.modSwitch i fun w => { w.loaded c seen with discharged := v }).seqIndicator i v := by
  have twice : ((s.modSwitch i fun w => w.loaded c seen).modSwitch i fun w => { w with discharged := v }) =
      s.modSwitch i fun w => { w.loaded c seen with discharged := v } := by
    rw [State.modSwitch, State.loaded_switch]
    simp [State.modSwitch]
  unfold State.setIndicator
  rw [State.loaded_switch, twice]
  rfl

/-- The record of the good channel gives the indicator (R53, R64). -/
theorem State.loaded_loadIndicator {ch : Fin 18} (h : c.channelOf = some ch) :
    (s.modSwitch i fun w => w.loaded c seen).loadIndicator i = (s.modSwitch i fun w => w.loaded c seen).setIndicator i
      (s.records[channelSource ch].valid &&
        decide (s.records[channelSource ch].latest.toInt ≤ c.offThreshold.toInt)) := by
  unfold State.loadIndicator
  rw [State.loaded_switch]
  simp only [Switch.loaded, h]
  rfl

/-- Where the byte names no channel the indicator is a free value (log 6). -/
theorem State.loaded_freeIndicator (h : c.channelOf = none) :
    (s.modSwitch i fun w => w.loaded c seen).loadIndicator i =
      ({ s with choice := s.choice + 1 }.modSwitch i fun w => w.loaded c seen).setIndicator i
        (Config.freeIndicator s.choice) := by
  unfold State.loadIndicator
  rw [State.loaded_switch]
  simp only [Switch.loaded, h]
  rfl

end loaded

/-- Settles O32: the checks in their order, then the configuration, X and the indicator of the new good channel. -/
theorem switchLoad : Obligations.SwitchLoad := by
  intro s hs hr
  have taken : exec .loadSwitch s = .next (loadSwitchBody s).answer :=
    congrArg Host.Outcome.next (takeCommand_taken hs loadSwitchBody)
  rw [taken]
  refine ⟨fun ha => ?_, fun i hi => ?_⟩
  · simp [loadSwitchBody, hr, numberBelow_none (n := 8) ha, State.refuse, Reply.answer]
  intro c listed invalid held loaded shown
  have named : (!c.isEnabled && s.seq.lists i) = true ↔ c.enabled = 0 ∧ listed := by
    rw [Bool.and_eq_true, Sequencer.lists_iff]
    simp [SwitchConfig.isEnabled, listed]
  have fails : c.fails = true ↔ invalid := c.fails_iff
  have indicated (free : Nat) (v : Bool) :
      ({ s with choice := s.choice + free }.modSwitch i fun w => w.loaded c s.trip.seen).setIndicator i v = shown free v := by
    have member : HoldSet.withX s.switches[i].holds (c.obeysTrip && s.trip.seen) = held := by
      simp only [HoldSet.withX, Bool.and_eq_true, SwitchConfig.obeysTrip_iff]
      rfl
    rw [State.loaded_setIndicator]
    simp only [State.modSwitch, Switch.loaded, member]
    rfl
  rw [loadSwitchBody_of hr hi]
  refine ⟨fun h => ?_, fun hoff hn hv => ?_, fun hoff hn hv => ?_⟩
  · by_cases hoff : s.switches[i].state = .off
    · rw [if_neg (not_not.2 hoff), if_pos (named.2 (h.resolve_left (not_not.2 hoff)))]
      rfl
    · rw [if_pos hoff]
      rfl
  · rw [if_neg (not_not.2 hoff), if_neg (mt named.1 hn), if_pos (fails.2 hv)]
    rfl
  · rw [if_neg (not_not.2 hoff), if_neg (mt named.1 hn), if_neg (mt fails.1 hv)]
    refine ⟨fun ch hch => ?_, fun hnone => ⟨Config.freeIndicator s.choice, ?_⟩⟩
    · rw [State.loaded_loadIndicator _ _ _ _ (numberBelow_some hch)]
      exact congrArg (fun t : State => Host.Outcome.next (t.answered .ok 0)) (indicated 0 _)
    · rw [State.loaded_freeIndicator _ _ _ _ (numberBelow_none hnone)]
      exact congrArg (fun t : State => Host.Outcome.next (t.answered .ok 0)) (indicated 1 _)

end Sys2Proof.Machine
end

section
/-! SUPPORT. The ramp timer, the FAILED message it sends and the step limit beside it (R57, R63, R80, R89; logs 7 and 26). -/

namespace Sys2Proof.Machine

/-! ### What a power-down leaves (R87, R91) -/

/-- Down steps that begin leave the Sequencer in POWERING_DOWN or STANDBY, with the last outcome as it was. -/
theorem runDown_seq (cause : DownCause) (l : List SeqStep) (i : Nat) (s : State) :
    (runDown cause l i s).seq.outcome = s.seq.outcome ∧ ∀ j p, (runDown cause l i s).seq.state ≠ .poweringUp j p := by
  induction l generalizing i s with
  | nil => exact ⟨rfl, fun j p h => by cases h⟩
  | cons t rest ih =>
    unfold runDown
    dsimp only
    split
    · split
      · exact ih _ _
      · exact ⟨rfl, fun j p h => by cases h⟩
    · exact ⟨rfl, fun j p h => by cases h⟩

/-- A power-down that begins sets the last outcome by its cause, and the Sequencer is not in POWERING_UP after it (R87). -/
theorem State.powerDown_seq (s : State) (cause : DownCause) : (s.powerDown cause).seq.outcome = cause.outcome ∧
    ∀ j p, (s.powerDown cause).seq.state ≠ .poweringUp j p :=
  runDown_seq cause _ 0 _

/-! ### FAILED messages (R63, R89) -/

/-- In POWERING_UP with the switch's demand ON the message begins a power-down with cause RAMP (R89). -/
theorem State.seqSwitchFailed_up {s : State} {i : Fin 8} (h : ∃ j p, s.seq.state = .poweringUp j p)
    (hd : s.switches[i].demand = true) : s.seqSwitchFailed i = s.powerDown (.ramp i) := by
  obtain ⟨j, p, h⟩ := h
  simp only [State.seqSwitchFailed, h, hd, if_true]

/-- With its demand OFF it has no effect (R89). -/
theorem State.seqSwitchFailed_undemanded {s : State} {i : Fin 8} (hd : s.switches[i].demand = false) :
    s.seqSwitchFailed i = s := by
  unfold State.seqSwitchFailed
  rw [hd]
  split <;> rfl

/-- Messages either change nothing or leave the Sequencer outside POWERING_UP (R89). -/
theorem State.seqSwitchFailed_list (l : List (Fin 8)) (s : State) : l.foldl State.seqSwitchFailed s = s ∨
    ∀ j p, (l.foldl State.seqSwitchFailed s).seq.state ≠ .poweringUp j p := by
  induction l generalizing s with
  | nil => exact .inl rfl
  | cons i l ih =>
    rw [List.foldl_cons]
    by_cases h : ∃ j p, s.seq.state = .poweringUp j p
    · cases hd : s.switches[i].demand with
      | false =>
        rw [State.seqSwitchFailed_undemanded hd]
        exact ih s
      | true =>
        have down := (s.powerDown_seq (.ramp i)).2
        rw [State.seqSwitchFailed_up h hd]
        refine .inr ((ih (s.powerDown (.ramp i))).elim (fun e => ?_) id)
        rw [e]
        exact down
    · rw [State.seqSwitchFailed_idle (fun j p e => h ⟨j, p, e⟩)]
      exact ih s

/-- One message on its way is taken by itself (R63, R89). -/
theorem State.takeFailures_one {s : State} {i : Fin 8} (h : s.seq.failed = [i]) :
    s.takeFailures = (s.modSeq fun q => { q with failed := [] }).seqSwitchFailed i := by
  unfold State.takeFailures
  rw [h]
  rfl

/-- Once a message of a demanded switch is among those taken, the Sequencer is not in POWERING_UP (R89). -/
theorem State.takeFailures_demanded {s : State} {l : List (Fin 8)} {i : Fin 8} (hf : s.seq.failed = l ++ [i])
    (hd : s.switches[i].demand = true) (j : Nat) (p : StepPhase) : s.takeFailures.seq.state ≠ .poweringUp j p := by
  unfold State.takeFailures
  rw [hf, List.foldl_append, List.foldl_cons, List.foldl_nil]
  generalize hu : (s.modSeq fun q => { q with failed := [] }) = u
  have hd : u.switches[i].demand = true := by
    rw [← hu]
    exact hd
  have last (t : State) (h : t = u ∨ ∀ j p, t.seq.state ≠ .poweringUp j p) :
      (t.seqSwitchFailed i).seq.state ≠ .poweringUp j p := by
    by_cases hup : ∃ j p, t.seq.state = .poweringUp j p
    · have same : t = u := h.resolve_right fun hn => hup.elim fun j ⟨p, e⟩ => hn j p e
      rw [State.seqSwitchFailed_up hup (by rw [same]; exact hd)]
      exact (t.powerDown_seq _).2 j p
    · have down : ∀ j p, t.seq.state ≠ .poweringUp j p := fun j p e => hup ⟨j, p, e⟩
      rw [State.seqSwitchFailed_idle down]
      exact down j p
  exact last _ (State.seqSwitchFailed_list l u)

/-- Outside POWERING_UP no step limit expires (R79). -/
theorem stepLimitExpiry_idle {s : State} (h : ∀ j p, s.seq.state ≠ .poweringUp j p) : stepLimitExpiry s = s := by
  unfold stepLimitExpiry
  split
  · rename_i e
    exact absurd e (h _ _)
  all_goals rfl

/-! ### The expiry (R57, R80) -/

/-- A ramp timer that is stopped does not expire (R55). -/
theorem rampExpiry_stopped {s : State} {i : Fin 8} (h : s.switches[i].rampTimer = none) : rampExpiry i s = s :=
  if_neg fun hc => by
    have due := hc.2
    rw [h] at due
    cases due

/-- Settles O35: the messages by the state of the Sequencer, then the expiry, with its own message taken at once, later, or
after a step-limit expiry. -/
theorem rampTimeout : Obligations.RampTimeout := by
  constructor
  · intro s none_
    refine ⟨?_, State.takeFailures_none, State.takeFailures_idle⟩
    have each : State.seqSwitchFailed = fun u i => match u.seq.state with
        | .poweringUp _ _ => if u.switches[i].demand then u.powerDown (.ramp i) else u
        | _ => u := by
      funext u i
      unfold State.seqSwitchFailed
      cases u.seq.state <;> rfl
    unfold State.takeFailures
    rw [each]
    rfl
  intro s i hs
  have expiry : exec (.rampTimerExpiry i) s = .next (rampExpiry i s) := congrArg Host.Outcome.next (awake_of hs _)
  rw [expiry]
  refine ⟨fun hn => congrArg Host.Outcome.next (rampExpiry_stopped hn), ?_⟩
  intro hramp hdue failed waits
  have demand : waits.switches[i].demand = s.switches[i].demand := by
    change (s.switches.set i { s.switches[i] with state := .failed, rampTimer := none })[i].demand = _
    rw [getElem_set_fin, if_pos rfl]
  have sent : { s.failSwitch i with choice := s.choice + 1 } = waits := rfl
  have told := rampExpiry_cases hramp (by rw [hdue]; rfl)
  rw [sent] at told
  refine ⟨told.imp (congrArg _) (congrArg _), fun hnone => ?_, fun j st hup hst hlimit => ⟨?_, fun hd => ?_⟩⟩
  · have taken : waits.takeFailures = failed.seqSwitchFailed i := by
      have one : waits.seq.failed = [i] := congrArg (· ++ [i]) hnone
      have rest : (waits.modSeq fun q => { q with failed := [] }) = failed := by
        change { failed with seq := { s.seq with failed := [] } } = { failed with seq := s.seq }
        rw [← hnone]
      rw [State.takeFailures_one one, rest]
    rw [taken]
    refine ⟨fun h => h.elim (fun h => ?_) fun h => ?_, fun h hd => ?_⟩
    · exact State.seqSwitchFailed_idle (by exact h) i
    · exact State.seqSwitchFailed_undemanded (demand.trans h)
    · exact State.seqSwitchFailed_up (by exact h) (demand.trans hd)
  · have limit : exec .stepLimitExpiry waits = .next (stepLimitExpiry waits) := (exec_sequencerExpiries (by exact hs)).1
    obtain ⟨outcome, down⟩ := State.powerDown_seq
      (waits.post .seqStepTimeout (some j) (BitVec.ofNat 16 st.switch.val) 2) (.timeout j)
    refine ⟨_, limit, stepLimitExpiry_due (by exact hup) (by exact hst) (by exact hlimit), ?_⟩
    rw [stepLimitExpiry_due (by exact hup) (by exact hst) (by exact hlimit)]
    exact ⟨outcome, State.takeFailures_idle down⟩
  · have awake : waits.takeFailures.inReset = false := waits.takeFailures_keeps.inReset.trans hs
    rw [(exec_sequencerExpiries awake).1, stepLimitExpiry_idle (State.takeFailures_demanded rfl (demand.trans hd))]

end Sys2Proof.Machine
end

section
/-! SUPPORT. The steps of a sequence, and POWER UP and POWER DOWN (R77 to R92). -/

namespace Sys2Proof.Machine

/-! ### Up steps (R77, R78, R85) -/

/-- An up step demands its switch and waits, with the step-limit timer where it has a limit (R78). -/
theorem State.beginUp_at {s : State} {i : Nat} {st : SeqStep} (h : s.seq.upList[i]? = some st) : s.beginUp i = { s with
    seq :=
      { s.seq with
        state := .poweringUp i .waiting, stepLimit := if st.limit = 0 then none else some st.limit, discharge := none
        settle := none }
    switches := s.switches.set st.switch (s.switches[st.switch].takeDemand true) } := by
  simp only [State.beginUp, h]
  split <;> rfl

/-- Past the last up step the list's end is taken (R77, R85). -/
theorem State.beginUp_past {s : State} {i : Nat} (h : s.seq.upList.length ≤ i) : s.beginUp i = s.upListEnd := by
  simp only [State.beginUp, List.getElem?_eq_none h]

/-! ### Down steps (R77, R81, R91) -/

/-- A down step takes its switch's demand away, before its indicator is read (R81 steps 1 and 2). -/
def State.downBegun (s : State) (cause : DownCause) (i : Nat) (st : SeqStep) : State :=
  { s with
    seq :=
      { s.seq with
        state := .poweringDown i .waiting cause, stepLimit := none, discharge := none, settle := none }
    switches := s.switches.set st.switch (s.switches[st.switch].takeDemand false) }

/-- The first of the steps still to run goes on by its discharged indicator and its settle delay (R77, R81). -/
theorem runDown_cons (cause : DownCause) (st : SeqStep) (rest : List SeqStep) (i : Nat) (s : State) :
    runDown cause (st :: rest) i s =
      if s.switches[st.switch].discharged = true then
        if st.settle = 0 then runDown cause rest (i + 1) (s.downBegun cause i st)
        else (s.downBegun cause i st).modSeq fun q =>
          { q with state := .poweringDown i .settling cause, settle := some st.settle }
      else (s.downBegun cause i st).modSeq fun q =>
        { q with discharge := some s.switches[st.switch].config.dischargeTimeout } := by
  have switch : (s.downBegun cause i st).switches[st.switch] = s.switches[st.switch].takeDemand false := by
    simp only [State.downBegun, getElem_set_fin, if_true]
  have discharged := congrArg Switch.discharged switch
  have config := congrArg Switch.config switch
  rw [Switch.takeDemand_discharged] at discharged
  rw [Switch.takeDemand_config] at config
  rw [← discharged, ← config]
  rfl

theorem State.beginDown_at {s : State} {i : Nat} {st : SeqStep} (h : s.seq.downList[i]? = some st) (cause : DownCause) :
    s.beginDown cause i = runDown cause (st :: s.seq.downList.drop (i + 1)) i s := by
  obtain ⟨hi, rfl⟩ := List.getElem?_eq_some_iff.1 h
  rw [State.beginDown, List.drop_eq_getElem_cons hi]

/-- Past the last down step the list's end is taken (R77, R91). -/
theorem State.beginDown_past {s : State} {i : Nat} (cause : DownCause) (h : s.seq.downList.length ≤ i) :
    s.beginDown cause i = s.downListEnd cause := by
  rw [State.beginDown, List.drop_eq_nil_of_le h]
  rfl

/-- Settles O39: each list at a step and past its last, and the power-down as it is defined. -/
theorem sequenceSteps : Obligations.SequenceSteps := by
  intro s i cause st with_ ended
  have told : ended = (cause.detail, cause.cls, cause.outcome) := by
    rw [DownCause.detail_eq]
    cases cause <;> rfl
  rw [told]
  refine ⟨State.beginUp_at, State.beginUp_past, fun h => ⟨fun hd => ?_, fun hd hs => ?_, fun hd hs => ?_⟩,
    State.beginDown_past cause, rfl⟩
  · rw [State.beginDown_at h, runDown_cons, if_neg (by rw [hd]; decide)]
    rfl
  · rw [State.beginDown_at h, runDown_cons, if_pos hd, if_neg hs]
    rfl
  · rw [State.beginDown_at h, runDown_cons, if_pos hd, if_pos hs]
    rfl

/-! ### POWER UP and POWER DOWN (R84, R86) -/

/-- Settles O38: the state of the Sequencer picks the row of each table. -/
theorem powerCommands : Obligations.PowerCommands := by
  intro s hs
  have up : exec .powerUp s = .next (powerUpBody s).answer := congrArg Host.Outcome.next (takeCommand_taken hs powerUpBody)
  have down : exec .powerDown s = .next (powerDownBody s).answer :=
    congrArg Host.Outcome.next (takeCommand_taken hs powerDownBody)
  rw [up, down]
  refine ⟨fun hr => ?_, fun hr => ?_⟩
  all_goals simp only [powerUpBody, powerDownBody, hr, Bool.not_false, Bool.not_true, Bool.false_eq_true, if_true, if_false]
  · exact ⟨rfl, rfl⟩
  refine ⟨fun h => ?notReady, fun i p h => ?up, fun i p c h => ?down, fun h => ?running, fun h => ?standby⟩
  all_goals simp only [h]
  case standby =>
    refine ⟨rfl, fun hl => ?_, fun hl => ?_⟩
    · rw [if_pos (List.isEmpty_iff.2 hl)]
      rfl
    · rw [if_neg (mt List.isEmpty_iff.1 hl)]
      rfl
  all_goals exact ⟨rfl, rfl⟩

end Sys2Proof.Machine
end

section
/-! SUPPORT. LOAD SEQUENCE: its checks in the words of R73, and the lists that pass them (R73, R74). -/

namespace Sys2Proof.Machine

/-! ### The checks (R73) -/

theorem SwitchConfig.isEnabled_iff (c : SwitchConfig) : c.isEnabled = true ↔ c.enabled ≠ 0 := by
  simp [SwitchConfig.isEnabled]

/-- A staged step names a switch that is not enabled (R73 check 8). -/
theorem namesDisabled_iff (switches : Vector Switch 8) (u : StagedSeqStep) : namesDisabled switches u = true ↔
    ∃ i : Fin 8, BitVec.ofNat 8 i.val = u.switch ∧ switches[i].config.enabled = 0 := by
  have named (i : Fin 8) : BitVec.ofNat 8 i.val = u.switch ↔ numberBelow 8 u.switch = some i := by
    rw [numberBelow_eq_some, eq_comm, ← BitVec.toNat_inj, BitVec.toNat_ofNat, Nat.mod_eq_of_lt (by omega)]
  simp only [named]
  unfold namesDisabled
  cases numberBelow 8 u.switch with
  | none => simp
  | some i => simp [SwitchConfig.isEnabled]

/-- The switches that staged steps name. -/
def stagedNames (l : List StagedSeqStep) : List Byte := l.map StagedSeqStep.switch

/-- Checks 3 to 9 in the words of R73. -/
theorem SeqStaging.firstFailing_eq (t : SeqStaging) (switches : Vector Switch 8) : t.firstFailing switches =
    if t.upLength = 0 ∨ 16 < t.upLength.toNat then some 1
    else if t.downLength = 0 ∨ 16 < t.downLength.toNat then some 2
    else if ∃ b ∈ stagedNames t.upSteps ++ stagedNames t.downSteps, 7 < b.toNat then some 3
    else if ¬(stagedNames t.upSteps).Nodup then some 4
    else if ¬(stagedNames t.downSteps).Nodup then some 5
    else if ∃ i : Fin 8, BitVec.ofNat 8 i.val ∈ stagedNames t.upSteps ++ stagedNames t.downSteps ∧
        switches[i].config.enabled = 0 then some 6
    else if ∃ b ∈ stagedNames t.upSteps, b ∉ stagedNames t.downSteps then some 7
    else none := by
  have length (n : Byte) : (n = 0 || decide (16 < n.toNat)) = true ↔ n = 0 ∨ 16 < n.toNat := by simp
  have unnamed : (t.upSteps ++ t.downSteps).any (fun u => decide (7 < u.switch.toNat)) = true ↔
      ∃ b ∈ stagedNames t.upSteps ++ stagedNames t.downSteps, 7 < b.toNat := by
    simp only [List.any_eq_true, stagedNames, ← List.map_append, List.mem_map, exists_exists_and_eq_and, decide_eq_true_eq]
  have twice (l : List StagedSeqStep) : (!decide (l.map StagedSeqStep.switch).Nodup) = true ↔ ¬(stagedNames l).Nodup := by
    simp [stagedNames]
  have disabled : (t.upSteps ++ t.downSteps).any (namesDisabled switches) = true ↔
      ∃ i : Fin 8, BitVec.ofNat 8 i.val ∈ stagedNames t.upSteps ++ stagedNames t.downSteps ∧
        switches[i].config.enabled = 0 := by
    simp only [List.any_eq_true, namesDisabled_iff, stagedNames, ← List.map_append, List.mem_map]
    constructor
    · rintro ⟨u, hu, i, hi, off⟩
      exact ⟨i, ⟨u, hu, hi.symm⟩, off⟩
    · rintro ⟨i, ⟨u, hu, hi⟩, off⟩
      exact ⟨u, hu, i, hi.symm, off⟩
  have missing : t.upSteps.any (fun u => !(t.downSteps.map StagedSeqStep.switch).contains u.switch) = true ↔
      ∃ b ∈ stagedNames t.upSteps, b ∉ stagedNames t.downSteps := by
    simp [stagedNames]
  unfold SeqStaging.firstFailing
  exact if_congr (length _) rfl (if_congr (length _) rfl (if_congr unnamed rfl (if_congr (twice _) rfl
    (if_congr (twice _) rfl (if_congr disabled rfl (if_congr missing rfl rfl))))))

/-- The state after LOAD SEQUENCE with the staged lists in force (R74). -/
def State.sequenceLoaded (s : State) : State :=
  { s with
    seq :=
      { s.seq with
        upList := s.seq.staging.upSteps.map StagedSeqStep.toStep
        downList := s.seq.staging.downSteps.map StagedSeqStep.toStep } }

/-- A result that depends on a check, taken apart at the check. -/
theorem elim_ite {α β : Type} (p : Prop) [Decidable p] (x y : Option α) (b : β) (f : α → β) :
    (if p then x else y).elim b f = if p then x.elim b f else y.elim b f := by
  split <;> rfl

/-- The result of LOAD SEQUENCE in a ready part (R73, R74). -/
theorem loadSequenceBody_of {s : State} (hr : s.ready = true) : (loadSequenceBody s).answer =
    if s.seq.state.busy = true then s.answered .seqBusy 0
    else (s.seq.staging.firstFailing s.switches).elim (s.sequenceLoaded.answered .ok 0) (s.answered .badArgument) := by
  unfold loadSequenceBody
  rw [if_neg (by simp [hr]), Reply.answer_ite]
  cases s.seq.staging.firstFailing s.switches <;> rfl

/-- Settles O37: the Sequencer's state first, then the checks of the staging record in their order. -/
theorem sequenceLoad : Obligations.SequenceLoad := by
  intro s hs hr q ups downs names
  have taken : exec .loadSequence s = .next (loadSequenceBody s).answer :=
    congrArg Host.Outcome.next (takeCommand_taken hs loadSequenceBody)
  rw [taken, loadSequenceBody_of hr, SeqStaging.firstFailing_eq]
  simp only [elim_ite, Option.elim_some, Option.elim_none]
  exact congrArg _ (if_congr s.seq.state.busy_iff rfl rfl)

/-! ### The lists that pass (R74) -/

/-- The number of the switch that a byte names, where it names one (R73 check 5). -/
def switchNumber (b : Byte) : Fin 8 := ⟨b.toNat % 8, Nat.mod_lt _ (by decide)⟩

theorem seqSwitches_toStep (l : List StagedSeqStep) :
    seqSwitches (l.map StagedSeqStep.toStep) = (stagedNames l).map switchNumber := by
  simp [seqSwitches, stagedNames, StagedSeqStep.toStep, switchNumber]

theorem switchNumber_ofNat {b : Byte} (h : b.toNat ≤ 7) : BitVec.ofNat 8 (switchNumber b).val = b := by
  apply BitVec.eq_of_toNat_eq
  simp only [switchNumber, BitVec.toNat_ofNat]
  omega

/-- Different bytes that name switches name different ones. -/
theorem nodup_map_switchNumber {l : List Byte} (hb : ∀ b ∈ l, b.toNat ≤ 7) (h : l.Nodup) : (l.map switchNumber).Nodup := by
  refine h.map_on fun x hx y hy e => ?_
  rw [← switchNumber_ofNat (hb x hx), e, switchNumber_ofNat (hb y hy)]

/-- A staged list of length 1 to 16 is not empty. -/
theorem take_length_ne_nil {v : Vector StagedSeqStep 16} {n : Byte} (h : n ≠ 0) : v.toList.take n.toNat ≠ [] := by
  have : n.toNat ≠ 0 := fun e => h (BitVec.eq_of_toNat_eq e)
  rw [Ne, List.take_eq_nil_iff, not_or]
  refine ⟨this, fun e => ?_⟩
  have := congrArg List.length e
  simp at this

/-- Lists that pass the checks are sound in force (R74). -/
theorem State.sequenceLoaded_listsSound {s : State} (h : s.seq.staging.firstFailing s.switches = none) :
    s.sequenceLoaded.listsSound := by
  rw [SeqStaging.firstFailing_eq] at h
  simp only [ite_eq_right_iff, reduceCtorEq, imp_false, ite_eq_iff, and_false, false_or, not_or, not_exists, not_and,
    not_not, Nat.not_lt] at h
  obtain ⟨⟨hu, -⟩, ⟨hd, -⟩, hnamed, hup, hdown, hon, hsub⟩ := h
  obtain ⟨ups, downs⟩ := List.forall_mem_append.1 hnamed
  simp only [State.listsSound, State.sequenceLoaded, seqSwitches_toStep, List.forall_mem_map, List.map_eq_nil_iff]
  refine ⟨nodup_map_switchNumber ups hup, nodup_map_switchNumber downs hdown, fun b hb => ?_, fun b hb => ?_, ?_⟩
  · exact List.mem_map_of_mem (hsub b hb)
  · have named : BitVec.ofNat 8 (switchNumber b).val = b := switchNumber_ofNat (downs b hb)
    rw [SwitchConfig.isEnabled_iff]
    exact hon _ (by rw [named]; exact List.mem_append_right _ hb)
  · exact iff_of_false (take_length_ne_nil hu) (take_length_ne_nil hd)

end Sys2Proof.Machine
end

section
/-! SUPPORT. Every step keeps the lists in force sound, and the demands within what the sequencer state allows (R74, R76). -/

namespace Sys2Proof.Machine

/-! ### What a step keeps -/

/-- The passage keeps the lists in force sound and the demands within the sequence (R74, R76). -/
structure SequenceKept (s t : State) : Prop where
  lists : s.listsSound → t.listsSound
  demands : s.demandsFollow → t.demandsFollow

theorem SequenceKept.refl (s : State) : SequenceKept s s := ⟨id, id⟩

theorem SequenceKept.trans {s t u : State} (a : SequenceKept s t) (b : SequenceKept t u) : SequenceKept s u :=
  ⟨b.lists ∘ a.lists, b.demands ∘ a.demands⟩

theorem SequenceKept.foldl {α : Type} {f : State → α → State} (h : ∀ s x, SequenceKept s (f s x)) (l : List α)
    (s : State) : SequenceKept s (l.foldl f s) := by
  induction l generalizing s with
  | nil => exact .refl s
  | cons a l ih => exact (h s a).trans (ih _)

theorem Keeps.sequenceKept {s t : State} (h : Keeps s t) : SequenceKept s t := ⟨h.lists, h.demands⟩

/-- Lists in force stay sound while no switch that they name is disabled (R52, R74). -/
theorem State.listsSound_of {s t : State} (hs : t.seq = s.seq)
    (hw : ∀ i ∈ seqSwitches s.seq.downList, s.switches[i].config.isEnabled = true → t.switches[i].config.isEnabled = true)
    (h : s.listsSound) : t.listsSound := by
  obtain ⟨hup, hdown, hsub, hon, hnil⟩ := h
  unfold State.listsSound
  rw [hs]
  exact ⟨hup, hdown, hsub, fun i hi => hw i hi (hon i hi), hnil⟩

/-- A passage that moves neither the Sequencer nor a switch's configuration or demand keeps both. -/
theorem SequenceKept.ofSwitches {s t : State} (hs : t.seq = s.seq)
    (hw : ∀ i : Fin 8, t.switches[i].config = s.switches[i].config ∧ t.switches[i].demand = s.switches[i].demand) :
    SequenceKept s t :=
  ⟨State.listsSound_of hs fun i _ => by rw [(hw i).1]; exact id, State.demandsFollow_of hs fun i => (hw i).2⟩

theorem SequenceKept.modFault (s : State) (g : FaultMemory → FaultMemory) : SequenceKept s (s.modFault g) :=
  .ofSwitches rfl fun _ => ⟨rfl, rfl⟩

/-- A holder that joins moves no configuration and no demand (R65). -/
theorem State.joinMask_demand (s : State) (h : Holder) (m : Byte) (i : Fin 8) :
    (s.joinMask h m).switches[i].config = s.switches[i].config ∧
      (s.joinMask h m).switches[i].demand = s.switches[i].demand := by
  simp only [State.joinMask_switches, Fin.getElem_fin, Vector.getElem_ofFn]
  split <;> simp

/-- A holder that leaves moves no configuration and no demand (R65). -/
theorem State.leaveMask_demand (s : State) (h : Holder) (m : Byte) (i : Fin 8) :
    (s.leaveMask h m).switches[i].config = s.switches[i].config ∧
      (s.leaveMask h m).switches[i].demand = s.switches[i].demand := by
  simp only [State.leaveMask_switches, Fin.getElem_fin, Vector.getElem_ofFn]
  split <;> simp

theorem takeCommand_sequenceKept {s : State} {body : State → Reply} (h : SequenceKept s (body s).state) :
    SequenceKept s (takeCommand body s) := by
  unfold takeCommand
  split
  · exact h.trans (Keeps.other rfl).sequenceKept
  · exact .refl s

theorem awake_sequenceKept {s : State} {f : State → State} (h : SequenceKept s (f s)) : SequenceKept s (awake f s) := by
  unfold awake
  split
  · exact .refl s
  · exact h

/-- With no demand allowed, none is ON, so that the demands follow any sequencer state over lists that are sound (R76). -/
theorem State.demandsFollow.undemanded {s t : State} (h : s.demandsFollow) (hm : s.seq.mayDemand = [])
    (hw : t.switches = s.switches) (hl : ∀ i ∈ seqSwitches t.seq.upList, i ∈ seqSwitches t.seq.downList) :
    t.demandsFollow := by
  refine ⟨hl, fun i hi => ?_⟩
  rw [hw] at hi
  have allowed := h.2 i hi
  rw [hm] at allowed
  cases allowed

/-! ### LOAD SEQUENCE and LOAD SWITCH (R52, R53, R73, R74) -/

/-- While no sequence is in progress no switch may be demanded (R76). -/
theorem Sequencer.mayDemand_idle {q : Sequencer} (h : q.state.busy = false) : q.mayDemand = [] := by
  unfold Sequencer.mayDemand
  cases hq : q.state <;> simp_all [SeqState.busy]

/-- Lists that pass the checks replace those in force, while no demand is ON (R74, R76). -/
theorem loadSequenceBody_sequenceKept (s : State) : SequenceKept s (loadSequenceBody s).state := by
  unfold loadSequenceBody
  split
  · exact .refl s
  split
  · exact .refl s
  rename_i idle
  split
  · exact .refl s
  · rename_i passed
    refine ⟨fun _ => State.sequenceLoaded_listsSound passed, fun h => ?_⟩
    obtain ⟨_, _, covered, _⟩ := State.sequenceLoaded_listsSound passed
    exact h.undemanded (Sequencer.mayDemand_idle (by simpa using idle)) rfl covered

/-- A record that leaves no listed switch disabled moves neither lists nor demands (R52 check 4, R53). -/
theorem State.loadConfig_sequenceKept (s : State) (i : Fin 8) (c : SwitchConfig) (seen : Bool)
    (h : (!c.isEnabled && s.seq.lists i) = false) : SequenceKept s (s.modSwitch i fun w => w.loaded c seen) := by
  have switch (j : Fin 8) : (s.modSwitch i fun w => w.loaded c seen).switches[j] =
      if i = j then s.switches[i].loaded c seen else s.switches[j] := by
    rw [State.modSwitch_switches, getElem_set_fin]
  refine ⟨State.listsSound_of rfl fun j hj => ?_, State.demandsFollow_of rfl fun j => ?_⟩
  all_goals rw [switch]
  · split
    · rename_i hij
      subst hij
      obtain ⟨st, hst, hi⟩ := List.mem_map.1 hj
      have listed : s.seq.lists i = true := (s.seq.lists_iff i).2 ⟨st, List.mem_append_right _ hst, hi⟩
      rw [listed, Bool.and_true, Bool.not_eq_false'] at h
      exact fun _ => h
    · exact id
  · split
    · rename_i hij
      rw [← hij]
      rfl
    · rfl

theorem loadSwitchBody_sequenceKept (s : State) : SequenceKept s (loadSwitchBody s).state := by
  unfold loadSwitchBody
  split
  · exact .refl s
  split
  · exact .refl s
  split
  · exact .refl s
  split
  · exact .refl s
  rename_i listed
  split
  · exact .refl s
  · exact (s.loadConfig_sequenceKept _ _ _ (by simpa using listed)).trans (State.loadIndicator_keeps _ _).sequenceKept

/-! ### SOFT RESET (R186) -/

theorem State.dropHolder_sequenceKept (s : State) (n : Fin 32) : SequenceKept s (s.dropHolder n) := by
  unfold State.dropHolder
  split
  · exact .ofSwitches rfl (s.leaveMask_demand (.e n) s.entries[n].config.mask)
  · exact .refl s

theorem State.softReset_sequenceKept (s : State) : SequenceKept s s.softReset := by
  have dropped := SequenceKept.foldl State.dropHolder_sequenceKept (List.finRange 32) s
  unfold State.softReset
  generalize (List.finRange 32).foldl State.dropHolder s = s1 at dropped
  dsimp only
  generalize hs : ({ ({ s1 with entries := Vector.replicate 32 Entry.default } : State).modScan ScanUnit.softReset with
    records := _ } : State) = s3
  have invalid : SequenceKept s1 s3 := by
    subst hs
    exact ⟨id, id⟩
  have indicators := SequenceKept.foldl (f := fun t i => t.setIndicator i false)
    (fun t i => (t.setIndicator_keeps i false).sequenceKept) (List.finRange 8) s3
  generalize (List.finRange 8).foldl (fun t i => t.setIndicator i false) s3 = s4 at *
  exact (dropped.trans (invalid.trans indicators)).trans ⟨id, id⟩

theorem softResetBody_sequenceKept (s : State) : SequenceKept s (softResetBody s).state := by
  unfold softResetBody
  split
  · exact .refl s
  split
  case h_5 => exact s.softReset_sequenceKept
  all_goals exact .refl s

/-! ### A stored lock comes and goes (R141, R142) -/

theorem programComplete_sequenceKept (s : State) : SequenceKept s (programComplete s) := by
  unfold programComplete
  split
  · exact .refl s
  rename_i k _
  split
  · rename_i _ m _ _ _
    exact .ofSwitches rfl (s.joinMask_demand (.k k) m)
  all_goals exact .refl s

theorem eraseComplete_sequenceKept (s : State) : SequenceKept s (eraseComplete s) := by
  unfold eraseComplete
  split
  · rename_i k _
    split
    · rename_i h _ _
      refine .trans ?_ (.modFault _ _)
      refine .trans ?_ (State.announceClear_keeps _ k h.entry _ _).sequenceKept
      exact .ofSwitches rfl (s.leaveMask_demand (.k k) h.mask)
    all_goals exact .refl s
  all_goals exact .refl s

/-! ### Resets and the restore (R148, R182, R183) -/

/-- In reset the lists are empty and every demand is OFF (R70, R93). -/
theorem State.assertReset_sequenceKept (s : State) : SequenceKept s s.assertReset := by
  refine ⟨fun _ => ?_, fun _ => ⟨fun i hi => hi, fun i hi => ?_⟩⟩
  · exact ⟨List.nodup_nil, List.nodup_nil, fun i hi => hi, fun i hi => (by cases hi), iff_of_true rfl rfl⟩
  · rw [s.assertReset_switch] at hi
    cases hi

theorem resetEnd_sequenceKept (addr1 addr0 tripLow : Bool) (s : State) : SequenceKept s (resetEnd addr1 addr0 tripLow s) := by
  unfold resetEnd
  split
  · exact .ofSwitches rfl fun _ => ⟨rfl, rfl⟩
  · exact .refl s

theorem State.settleSlot_sequenceKept (s : State) (k : Fin 4) : SequenceKept s (s.settleSlot k) := by
  unfold State.settleSlot
  dsimp only
  split
  · rename_i h _ _
    exact .ofSwitches rfl (s.joinMask_demand (.k k) h.mask)
  all_goals exact .ofSwitches rfl fun _ => ⟨rfl, rfl⟩

theorem restoreSlotSettled_sequenceKept (s : State) : SequenceKept s (restoreSlotSettled s) := by
  unfold restoreSlotSettled
  split
  · exact .refl s
  · split
    · exact s.settleSlot_sequenceKept _
    · exact .refl s

/-- The restore moves the Sequencer from NOT_READY, where no demand is ON, to STANDBY (R76, R183). -/
theorem restoreComplete_kept (s : State) : (s.listsSound → (restoreComplete s).listsSound) ∧
    (s.startingClean → s.demandsFollow → (restoreComplete s).demandsFollow) := by
  unfold restoreComplete
  split
  · exact ⟨id, fun _ => id⟩
  rename_i j hj
  have settled : SequenceKept s (s.settleFrom j) := .foldl State.settleSlot_sequenceKept _ s
  refine ⟨fun h => settled.lists h, fun hc h => ?_⟩
  have start := hc.restoring hj
  obtain ⟨_, _, unready⟩ := hc
  obtain ⟨notReady, _⟩ := unready start.notReady
  obtain ⟨_, _, _, seq⟩ := State.settleFrom_keeps (P := fun t => t.seq = s.seq)
    (fun t k _ ht => (t.settleSlot_frame k).2.1.trans ht) start rfl
  have idle : (s.settleFrom j).seq.state = .notReady := by
    rw [seq]
    exact notReady
  have after := settled.demands h
  exact after.undemanded (Sequencer.mayDemand_idle (by rw [idle]; rfl)) rfl after.1

/-! ### Every step -/

/-- Each step that does more than messages between blocks do keeps both; the completion of the restore asks for a clean start. -/
theorem exec_deep_sequenceKept {c : Instr} {s t : State} (hd : isDeep c = true) (hc : c ≠ .restoreComplete)
    (h : exec c s = .next t) : SequenceKept s t := by
  cases c <;> cases hd <;> cases h
  case loadSwitch => exact takeCommand_sequenceKept (loadSwitchBody_sequenceKept s)
  case loadSequence => exact takeCommand_sequenceKept (loadSequenceBody_sequenceKept s)
  case softReset => exact takeCommand_sequenceKept (softResetBody_sequenceKept s)
  case powerOnReset => exact s.assertReset_sequenceKept
  case pinReset => exact s.assertReset_sequenceKept
  case resetEnd a b low => exact resetEnd_sequenceKept a b low s
  case restoreSlotSettled => exact awake_sequenceKept (restoreSlotSettled_sequenceKept s)
  case restoreComplete => exact absurd rfl hc
  case programComplete => exact awake_sequenceKept (programComplete_sequenceKept s)
  case eraseComplete => exact awake_sequenceKept (eraseComplete_sequenceKept s)

/-- Every step of the table keeps both, the demands from a state that starts clean (R74, R76). -/
theorem exec_sequenceKept {c : Instr} {s t : State} (h : exec c s = .next t) :
    (s.listsSound → t.listsSound) ∧ (s.startingClean → s.demandsFollow → t.demandsFollow) := by
  by_cases hc : c = .restoreComplete
  · subst hc
    cases h
    unfold awake
    split
    · exact ⟨id, fun _ => id⟩
    · exact restoreComplete_kept s
  · have kept : SequenceKept s t := by
      cases hd : isDeep c with
      | false => exact (exec_keeps hd h).sequenceKept
      | true => exact exec_deep_sequenceKept hd hc h
    exact ⟨kept.lists, fun _ => kept.demands⟩

/-- Settles O59: an empty queue moves nothing, and the command at the front is executed as above. -/
theorem demandsFollowTheSequence : Obligations.DemandsFollowTheSequence := by
  intro s t h
  unfold step at h
  split at h
  · cases h
    exact ⟨id, fun _ => id⟩
  · rename_i c rest _
    have popped : SequenceKept s { s with pending := rest } := ⟨id, id⟩
    obtain ⟨lists, demands⟩ := exec_sequenceKept h
    exact ⟨lists ∘ popped.lists, fun hc hd => demands hc (popped.demands hd)⟩

end Sys2Proof.Machine
end

section
/-! SUPPORT. What a message between the blocks leaves alone: the Scan Unit, the records, the port, the medium and every
configuration (R22 to R47, R54 to R92, R115, R123). -/

namespace Sys2Proof.Machine

/-! ### Configurations of switches (R51, R53) -/

/-- The passage leaves the configuration of every switch. -/
def ConfigsStay (s t : State) : Prop := ∀ i : Fin 8, t.switches[i].config = s.switches[i].config

theorem ConfigsStay.refl (s : State) : ConfigsStay s s := fun _ => rfl

theorem ConfigsStay.trans {s t u : State} (a : ConfigsStay s t) (b : ConfigsStay t u) : ConfigsStay s u :=
  fun i => (b i).trans (a i)

theorem ConfigsStay.foldl {α : Type} {f : State → α → State} (h : ∀ s x, ConfigsStay s (f s x)) (l : List α)
    (s : State) : ConfigsStay s (l.foldl f s) := by
  induction l generalizing s with
  | nil => exact .refl s
  | cons a l ih => exact (h s a).trans (ih _)

/-- One switch moves and keeps its configuration. -/
theorem ConfigsStay.set {s t : State} (i : Fin 8) {w : Switch} (ht : t.switches = s.switches.set i w)
    (hw : w.config = s.switches[i].config) : ConfigsStay s t := by
  intro j
  rw [ht, getElem_set_fin]
  split
  · rename_i h
    rw [← h, hw]
  · rfl

theorem State.beginUp_configs (s : State) (i : Nat) : ConfigsStay s (s.beginUp i) := by
  unfold State.beginUp
  split
  · exact .refl s
  · dsimp only
    split <;> exact .set _ rfl (Switch.takeDemand_config _ _)

theorem runDown_configs (cause : DownCause) (l : List SeqStep) (i : Nat) (s : State) :
    ConfigsStay s (runDown cause l i s) := by
  induction l generalizing i s with
  | nil => exact .refl s
  | cons t rest ih =>
    have demanded : ConfigsStay s ((s.modSeq fun q =>
        { q.stopTimers with state := .poweringDown i .waiting cause }).demand t.switch false) :=
      .set t.switch rfl (Switch.takeDemand_config _ _)
    unfold runDown
    dsimp only
    split
    · split
      · exact demanded.trans (ih _ _)
      · exact demanded
    · exact demanded

theorem State.powerDown_configs (s : State) (cause : DownCause) : ConfigsStay s (s.powerDown cause) :=
  .trans (.refl s) (runDown_configs _ _ _ _)

theorem State.upConditionMet_configs (s : State) (i : Nat) : ConfigsStay s (s.upConditionMet i) := by
  unfold State.upConditionMet
  split
  · exact .refl s
  · split
    · exact s.beginUp_configs _
    · exact .refl s

theorem State.downConditionMet_configs (s : State) (cause : DownCause) (i : Nat) :
    ConfigsStay s (s.downConditionMet cause i) := by
  unfold State.downConditionMet
  split
  · exact .refl s
  · split
    · exact runDown_configs _ _ _ _
    · exact .refl s

theorem State.seqSwitchOn_configs (s : State) (i : Fin 8) : ConfigsStay s (s.seqSwitchOn i) := by
  unfold State.seqSwitchOn
  split
  · split
    · exact s.upConditionMet_configs _
    · exact .refl s
  all_goals exact .refl s

theorem State.seqSwitchFailed_configs (s : State) (i : Fin 8) : ConfigsStay s (s.seqSwitchFailed i) := by
  unfold State.seqSwitchFailed
  split
  · split
    · exact s.powerDown_configs _
    · exact .refl s
  all_goals exact .refl s

theorem State.takeFailures_configs (s : State) : ConfigsStay s s.takeFailures :=
  .trans (.refl s) (.foldl State.seqSwitchFailed_configs _ _)

theorem State.seqIndicator_configs (s : State) (i : Fin 8) (v : Bool) : ConfigsStay s (s.seqIndicator i v) := by
  unfold State.seqIndicator
  split
  · split
    · exact s.downConditionMet_configs _ _
    · exact .refl s
  all_goals exact .refl s

theorem State.seqAbort_configs (s : State) (n : Fin 32) : ConfigsStay s (s.seqAbort n) := by
  unfold State.seqAbort
  split
  · exact s.powerDown_configs _
  · exact s.powerDown_configs _
  all_goals exact .refl s

theorem State.goodSample_configs (s : State) (i : Fin 8) (x : Reading) : ConfigsStay s (s.goodSample i x) := by
  unfold State.goodSample
  split
  · have on : ConfigsStay s (s.modSwitch i fun w => w.enter .on) := .set i rfl rfl
    exact on.trans ((State.takeFailures_configs _).trans (State.seqSwitchOn_configs _ _))
  · exact .refl s

theorem State.setIndicator_configs (s : State) (i : Fin 8) (v : Bool) : ConfigsStay s (s.setIndicator i v) := by
  unfold State.setIndicator
  split
  · exact .refl s
  · have moved : ConfigsStay s (s.modSwitch i fun w => { w with discharged := v }) := .set i rfl rfl
    exact moved.trans (State.seqIndicator_configs _ _ _)

theorem State.watch_configs (s : State) (ch : Fin 18) (i : Fin 8) (good : Bool) : ConfigsStay s (s.watch ch i good) := by
  unfold State.watch
  dsimp only
  split
  · cases good
    · exact State.setIndicator_configs _ _ _
    · exact (State.goodSample_configs _ _ _).trans (State.setIndicator_configs _ _ _)
  · exact State.setIndicator_configs _ _ _

/-! ### Passages that leave the Scan Unit and the Measurement Table -/

/-- The passage leaves the Scan Unit, the records and the pending loads of the entries. -/
structure ScanStays (s t : State) : Prop where
  scan : t.scan = s.scan
  records : t.records = s.records
  loads : ∀ n : Fin 32, t.entries[n].pendingLoad = s.entries[n].pendingLoad

/-- The passage leaves with them the port, the trip filter, the clock, the medium and every configuration. -/
structure Undisturbed (s t : State) : Prop extends ScanStays s t where
  port : t.port = s.port
  trip : t.trip = s.trip
  timestamp : t.timestamp = s.timestamp
  ready : t.ready = s.ready
  inForce : t.derivedInForce = s.derivedInForce
  medium : t.fault.medium = s.fault.medium
  entry : ∀ n : Fin 32, t.entries[n].config = s.entries[n].config
  switch : ConfigsStay s t

theorem ScanStays.refl (s : State) : ScanStays s s := ⟨rfl, rfl, fun _ => rfl⟩

theorem ScanStays.trans {s t u : State} (a : ScanStays s t) (b : ScanStays t u) : ScanStays s u :=
  ⟨b.scan.trans a.scan, b.records.trans a.records, fun n => (b.loads n).trans (a.loads n)⟩

theorem ScanStays.foldl {α : Type} {f : State → α → State} (h : ∀ s x, ScanStays s (f s x)) (l : List α)
    (s : State) : ScanStays s (l.foldl f s) := by
  induction l generalizing s with
  | nil => exact .refl s
  | cons a l ih => exact (h s a).trans (ih _)

/-- The entries do not move. -/
theorem ScanStays.of_entries {s t : State} (hs : t.scan = s.scan) (hr : t.records = s.records)
    (he : t.entries = s.entries) : ScanStays s t :=
  ⟨hs, hr, fun n => by rw [he]⟩

theorem OnlySwitching.scanStays {s t : State} : OnlySwitching s t → ScanStays s t := by
  rintro ⟨_, _, _, rfl⟩
  exact .of_entries rfl rfl rfl

theorem Undisturbed.refl (s : State) : Undisturbed s s :=
  ⟨.refl s, rfl, rfl, rfl, rfl, rfl, rfl, fun _ => rfl, .refl s⟩

theorem Undisturbed.trans {s t u : State} (a : Undisturbed s t) (b : Undisturbed t u) : Undisturbed s u where
  toScanStays := a.toScanStays.trans b.toScanStays
  port := b.port.trans a.port
  trip := b.trip.trans a.trip
  timestamp := b.timestamp.trans a.timestamp
  ready := b.ready.trans a.ready
  inForce := b.inForce.trans a.inForce
  medium := b.medium.trans a.medium
  entry := fun n => (b.entry n).trans (a.entry n)
  switch := a.switch.trans b.switch

theorem Undisturbed.foldl {α : Type} {f : State → α → State} (h : ∀ s x, Undisturbed s (f s x)) (l : List α)
    (s : State) : Undisturbed s (l.foldl f s) := by
  induction l generalizing s with
  | nil => exact .refl s
  | cons a l ih => exact (h s a).trans (ih _)

/-- The entries do not move, nor any configuration of a switch or the medium. -/
theorem Undisturbed.of_entries {s t : State}
    (ht : t = { s with
      switches := t.switches, seq := t.seq, queue := t.queue, captures := t.captures, fault := t.fault, choice := t.choice })
    (hm : t.fault.medium = s.fault.medium) (hw : ConfigsStay s t) : Undisturbed s t := by
  refine ⟨.of_entries ?_ ?_ ?_, ?_, ?_, ?_, ?_, ?_, hm, fun n => ?_, hw⟩
  all_goals rw [ht]

/-- A passage that moves switches, the Sequencer and the queue, and no configuration. -/
theorem OnlySwitching.undisturbed {s t : State} (h : OnlySwitching s t) (hc : ConfigsStay s t) : Undisturbed s t := by
  obtain ⟨_, _, _, rfl⟩ := h
  exact .of_entries rfl rfl hc

/-- One entry moves, its configuration and its pending load aside, and switches that keep their configurations, the queue, the
captures and of Fault Memory all but the medium. -/
theorem Undisturbed.entry_set {s t : State} (n : Fin 32) {e : Entry}
    (ht : t = { s with
      entries := s.entries.set n e, switches := t.switches, queue := t.queue, captures := t.captures, fault := t.fault })
    (hm : t.fault.medium = s.fault.medium) (hc : e.config = s.entries[n].config)
    (hl : e.pendingLoad = s.entries[n].pendingLoad) (hw : ConfigsStay s t) : Undisturbed s t := by
  have field {α : Type} (f : Entry → α) (hf : f e = f s.entries[n]) (m : Fin 32) : f t.entries[m] = f s.entries[m] := by
    rw [ht, getElem_set_fin]
    split
    · rename_i h
      rw [← h, hf]
    · rfl
  refine ⟨⟨?_, ?_, field Entry.pendingLoad hl⟩, ?_, ?_, ?_, ?_, ?_, hm, field Entry.config hc, hw⟩
  all_goals rw [ht]

/-- One entry moves, its configuration and its pending load aside. -/
theorem State.modEntry_undisturbed (s : State) (n : Fin 32) {f : Entry → Entry}
    (hc : (f s.entries[n]).config = s.entries[n].config)
    (hl : (f s.entries[n]).pendingLoad = s.entries[n].pendingLoad) : Undisturbed s (s.modEntry n f) :=
  .entry_set n rfl rfl hc hl (.refl s)

theorem State.post_undisturbed (s : State) (kind : EventKind) (source : Option Nat) (detail : Half) (cls : Fin 4) :
    Undisturbed s (s.post kind source detail cls) :=
  OnlySwitching.undisturbed ⟨_, _, _, rfl⟩ (.refl s)

theorem State.joinMask_configs (s : State) (h : Holder) (m : Byte) : ConfigsStay s (s.joinMask h m) :=
  fun i => (s.joinMask_demand h m i).1

theorem State.leaveMask_configs (s : State) (h : Holder) (m : Byte) : ConfigsStay s (s.leaveMask h m) :=
  fun i => (s.leaveMask_demand h m i).1

/-! ### The Qualification Engine (R24 to R47) -/

theorem State.returned_undisturbed (s : State) (n : Fin 32) (code : Half) : Undisturbed s (s.returned n code) :=
  .entry_set n rfl rfl rfl rfl (s.leaveMask_configs (.e n) s.entries[n].config.mask)

theorem State.recover_undisturbed (s : State) (n : Fin 32) (c : RecoverCause) : Undisturbed s (s.recover n c) := by
  rw [s.recover_eq]
  exact s.returned_undisturbed n _

theorem State.lockCleared_undisturbed (s : State) (n : Fin 32) : Undisturbed s (s.lockCleared n) := by
  rw [State.lockCleared_eq]
  split
  · exact s.returned_undisturbed n _
  · exact .refl s

theorem State.receive_undisturbed (s : State) (m : ClearMessage) : Undisturbed s (s.receive m) := by
  cases m with
  | engine n => exact s.lockCleared_undisturbed n
  | store n => exact .of_entries rfl rfl (.refl s)

theorem State.receiveWhere_undisturbed (p : ClearMessage → Bool) (s : State) : Undisturbed s (s.receiveWhere p) := by
  have taken : Undisturbed s (s.modFault fun f => { f with sent := f.sent.filter fun m => !p m }) :=
    .of_entries rfl rfl (.refl s)
  exact taken.trans (.foldl State.receive_undisturbed _ _)

/-- A lock request writes nothing on the medium: a program that starts with it is in its serial phase (R141, R143). -/
theorem State.lockRequest_undisturbed (s : State) (n : Fin 32) (mask : Byte) : Undisturbed s (s.lockRequest n mask) := by
  have faultOnly (f : FaultMemory) (hf : f.medium = s.fault.medium) : Undisturbed s { s with fault := f } :=
    .of_entries rfl hf (.refl s)
  unfold State.lockRequest
  split
  · rename_i k hk
    have free : s.fault.slots[k].nonEmpty = false := by simpa using FaultMemory.findSlot_some hk
    obtain ⟨x, b, w, p, e⟩ := FaultMemory.reserve_slots free n mask
    refine faultOnly ((s.fault.reserve k n mask).dropCopy n) ?_
    rw [e, FaultMemory.dropCopy_eq]
  · exact (faultOnly (s.fault.dropCopy n) rfl).trans (State.post_undisturbed _ _ _ _ _)

theorem State.qualify_undisturbed (s : State) (n : Fin 32) (d : DwellRecord) : Undisturbed s (s.qualify n d) := by
  have part : Undisturbed s (s.qualifiedPart n d) := by
    refine .entry_set n rfl ?_ rfl rfl (s.joinMask_configs (.e n) s.entries[n].config.mask)
    unfold State.qualifiedPart
    dsimp only
    split <;> rfl
  have requested (u : State) (c : EntryConfig) : Undisturbed u (if c.isLock then u.lockRequest n c.mask else u) := by
    split
    · exact u.lockRequest_undisturbed n _
    · exact .refl u
  have aborted (u : State) (c : EntryConfig) : Undisturbed u (if c.isAbort then u.seqAbort n else u) := by
    split
    · exact (u.seqAbort_switching n).undisturbed (u.seqAbort_configs n)
    · exact .refl u
  rw [State.qualify_eq]
  exact part.trans ((State.post_undisturbed _ _ _ _ _).trans ((requested _ _).trans (aborted _ _)))

theorem State.evaluate_undisturbed (s : State) (r : Fin 22) (n : Fin 32) : Undisturbed s (s.evaluate r n) := by
  unfold State.evaluate
  dsimp only
  split
  case isFalse => exact .refl s
  split
  case h_1 => exact .refl s
  case h_2 =>
    unfold State.evaluateIdle
    split
    · split
      · exact s.qualify_undisturbed n _
      · exact s.modEntry_undisturbed n rfl rfl
    · exact .refl s
  case h_3 =>
    unfold State.evaluatePending
    dsimp only
    split
    · exact s.modEntry_undisturbed n rfl rfl
    · split
      · exact (s.modEntry_undisturbed n rfl rfl).trans (State.post_undisturbed _ _ _ _ _)
      · exact s.modEntry_undisturbed n rfl rfl
  case h_4 =>
    unfold State.evaluateAsserted
    dsimp only
    split
    · split
      · exact s.modEntry_undisturbed n rfl rfl
      · split
        · exact s.recover_undisturbed n _
        · exact s.modEntry_undisturbed n rfl rfl
    · exact .refl s
  case h_5 =>
    split
    · exact .refl s
    · exact s.modEntry_undisturbed n rfl rfl
  case h_6 =>
    split
    · exact .refl s
    · exact s.modEntry_undisturbed n rfl rfl
  case h_7 => exact .refl s

theorem State.watch_undisturbed (s : State) (ch : Fin 18) (i : Fin 8) (good : Bool) :
    Undisturbed s (s.watch ch i good) :=
  (s.watch_switching ch i good).undisturbed (s.watch_configs ch i good)

end Sys2Proof.Machine
end


section
/-! SUPPORT. The messages of a step or of a frame end taken one after the other, in an order that is free (R25, R115, R123;
log 3). -/

namespace Sys2Proof.Machine

/-! ### One message after another (log 3) -/

/-- The state with the counter of free values at `c`. -/
def State.withChoice (s : State) (c : Nat) : State := { s with choice := c }

theorem State.withChoice_undisturbed (s : State) (c : Nat) : Undisturbed s (s.withChoice c) :=
  .of_entries rfl rfl (.refl s)

/-- Any of the waiting messages may be taken next; a free value is drawn where two or more wait. -/
theorem State.pick_perm (s : State) (m : Message) (rest : List Message) :
    ((s.pick m rest).1.1 :: (s.pick m rest).1.2).Perm (m :: rest) ∧
      (s.pick m rest).2 = s.withChoice (s.choice + min 1 rest.length) := by
  cases rest with
  | nil => exact ⟨.refl _, rfl⟩
  | cons m' rest =>
    refine ⟨?_, ?_⟩
    · unfold State.pick
      generalize s.draw Config.freeOrder (m' :: rest).length = drawn
      have inside : drawn.1.val < (m :: m' :: rest).length := drawn.1.isLt
      dsimp only
      rw [List.getD_eq_getElem _ _ inside]
      exact List.getElem_cons_eraseIdx_perm inside
    · simp [State.pick, State.draw, State.withChoice]

/-- One waiting message is taken, and the others wait on, with those it sends. -/
theorem drain_step (fuel : Nat) {l : List Message} (hl : l ≠ []) (s : State) : ∃ u m rest,
    u = s.withChoice (s.choice + min 1 rest.length) ∧ (m :: rest).Perm l ∧
    drain (fuel + 1) l s =
      drain fuel (rest.map (Message.after u (u.take m).1) ++ (u.take m).2) (u.take m).1 := by
  obtain ⟨first, others, rfl⟩ := List.exists_cons_of_ne_nil hl
  obtain ⟨perm, picked⟩ := s.pick_perm first others
  have size : (s.pick first others).1.2.length = others.length := by simpa using perm.length_eq
  exact ⟨_, _, _, by rw [size, picked], perm, rfl⟩

/-- What every message that may wait keeps, and what every message sent may be, holds until none waits. -/
theorem drain_keeps_of {P : State → Prop} {Q : Message → Prop} (hchoice : ∀ s c, P s → P (s.withChoice c))
    (hafter : ∀ s t m, Q m → Q (m.after s t))
    (htake : ∀ s m, P s → Q m → P (s.take m).1 ∧ ∀ x ∈ (s.take m).2, Q x) (fuel : Nat) {l : List Message} {s : State}
    (hs : P s) (hl : ∀ m ∈ l, Q m) : P (drain fuel l s) := by
  induction fuel generalizing l s with
  | zero => exact hs
  | succ fuel ih =>
    by_cases hn : l = []
    · rw [hn, drain_none]
      exact hs
    · obtain ⟨u, m, rest, hu, perm, step⟩ := drain_step fuel hn s
      obtain ⟨taken, sent⟩ := htake u m (hu ▸ hchoice s _ hs) (hl m (perm.subset List.mem_cons_self))
      rw [step]
      refine ih taken fun x hx => ?_
      rcases List.mem_append.1 hx with hx | hx
      · obtain ⟨y, hy, rfl⟩ := List.mem_map.1 hx
        exact hafter _ _ _ (hl y (perm.subset (List.mem_cons_of_mem _ hy)))
      · exact sent x hx

/-! ### The records (R114 to R116) -/

/-- The passage leaves all that `Undisturbed` names but the records. -/
def RecordsAside (s t : State) : Prop := Undisturbed { s with records := t.records } t

theorem Undisturbed.withRecords {s t : State} (h : Undisturbed s t) (r : Vector MeasRecord 22) :
    Undisturbed { s with records := r } { t with records := r } :=
  ⟨⟨h.scan, rfl, h.loads⟩, h.port, h.trip, h.timestamp, h.ready, h.inForce, h.medium, h.entry, h.switch⟩

theorem Undisturbed.recordsAside {s t : State} (h : Undisturbed s t) : RecordsAside s t :=
  ⟨⟨h.scan, rfl, h.loads⟩, h.port, h.trip, h.timestamp, h.ready, h.inForce, h.medium, h.entry, h.switch⟩

theorem RecordsAside.trans {s t u : State} (a : RecordsAside s t) (b : RecordsAside t u) : RecordsAside s u :=
  (Undisturbed.withRecords a u.records).trans b

theorem State.modRecord_recordsAside (s : State) (r : Fin 22) (f : MeasRecord → MeasRecord) :
    RecordsAside s (s.modRecord r f) :=
  .refl _

theorem State.take_recordsAside (s : State) (m : Message) : RecordsAside s (s.take m).1 := by
  cases m with
  | update ch code => exact s.modRecord_recordsAside _ _
  | evaluate r n => exact (s.evaluate_undisturbed r n).recordsAside
  | watch ch i good => exact (s.watch_undisturbed ch i good).recordsAside

theorem drain_recordsAside (fuel : Nat) (l : List Message) (s : State) : RecordsAside s (drain fuel l s) :=
  drain_keeps_of (P := RecordsAside s) (Q := fun _ => True) (fun t c h => h.trans (t.withChoice_undisturbed c).recordsAside)
    (fun _ _ _ => id) (fun t m h _ => ⟨h.trans (t.take_recordsAside m), fun _ _ => trivial⟩) fuel
    (Undisturbed.refl s).recordsAside fun _ _ => trivial

/-- The channel whose record a message updates. -/
def Message.channel (m : Message) : Option (Fin 18) :=
  match m with
  | .update ch _ => some ch
  | .evaluate _ _ => none
  | .watch _ _ _ => none

@[simp] theorem Message.channel_after (s t : State) (m : Message) : (m.after s t).channel = m.channel := by
  cases m <;> rfl

@[simp] theorem Message.weight_after (s t : State) (m : Message) : (m.after s t).weight = m.weight := by
  cases m <;> rfl

/-- An update sends evaluations and samples, at most one to each entry and each switch (R115). -/
theorem State.take_sent (s : State) (m : Message) : (∀ x ∈ (s.take m).2, x.channel = none) ∧
    ((s.take m).2.map Message.weight).sum + 1 ≤ m.weight := by
  cases m with
  | update ch code =>
    refine ⟨fun x hx => ?_, ?_⟩
    · rcases List.mem_append.1 hx with hx | hx <;> obtain ⟨_, _, rfl⟩ := List.mem_map.1 hx <;> rfl
    · generalize hu : s.modRecord (channelSource ch) (fun x => x.sample (s.scan.channels[ch].convert code)
        s.scan.channels[ch].weight.val s.scan.frameNumber) = u
      have sent : (s.take (.update ch code)).2 = u.updateMessages ch := by rw [← hu]; rfl
      have entries : (u.watchers (channelSource ch)).length ≤ 32 :=
        (List.length_filter_le ..).trans_eq List.length_finRange
      have switches : (u.switchesOn ch).length ≤ 8 := (List.length_filter_le ..).trans_eq List.length_finRange
      rw [sent, State.updateMessages, List.map_append, List.map_map, List.map_map,
        show Message.weight ∘ Message.evaluate (channelSource ch) = fun _ => 1 from rfl,
        show (Message.weight ∘ fun i => Message.watch ch i true) = fun _ => 1 from rfl]
      simp only [List.sum_append, List.map_const', List.sum_replicate, smul_eq_mul, mul_one, Message.weight]
      omega
  | evaluate | watch => exact ⟨fun x hx => (by cases hx), Nat.le_refl 1⟩

/-- The record of a channel after a sample by a raw code (R114 to R116). -/
def State.sampleOf (s : State) (ch : Fin 18) (code : RawCode) : MeasRecord :=
  s.records[channelSource ch].sample (s.scan.channels[ch].convert code) s.scan.channels[ch].weight.val s.scan.frameNumber

theorem State.take_update_record (s : State) (ch : Fin 18) (code : RawCode) :
    (s.take (.update ch code)).1.records[channelSource ch] = s.sampleOf ch code :=
  (getElem_set_fin ..).trans (if_pos rfl)

/-- No other record moves. -/
theorem State.take_other_record (s : State) {m : Message} {r : Fin 22} (h : ∀ ch, m.channel = some ch → channelSource ch ≠ r) :
    (s.take m).1.records[r] = s.records[r] := by
  cases m with
  | update ch code => exact (getElem_set_fin ..).trans (if_neg (h ch rfl))
  | evaluate r' n => rw [show (s.take (.evaluate r' n)).1.records = s.records from (s.evaluate_undisturbed r' n).records]
  | watch ch i good =>
    rw [show (s.take (.watch ch i good)).1.records = s.records from (s.watch_undisturbed ch i good).records]

/-- The channels whose updates wait after a message was taken. -/
theorem State.take_channels (s t : State) (m : Message) (rest : List Message) :
    (rest.map (Message.after s t) ++ (s.take m).2).filterMap Message.channel = rest.filterMap Message.channel := by
  have unsent : (s.take m).2.filterMap Message.channel = [] := List.filterMap_eq_nil_iff.2 (s.take_sent m).1
  rw [List.filterMap_append, unsent, List.append_nil, List.filterMap_map]
  exact congrArg (List.filterMap · rest) (funext (Message.channel_after s t))

/-- What the messages that wait after one was taken weigh. -/
theorem State.take_weights (s t : State) (m : Message) (rest : List Message) :
    ((rest.map (Message.after s t) ++ (s.take m).2).map Message.weight).sum + 1 ≤
      ((m :: rest).map Message.weight).sum := by
  have same : Message.weight ∘ Message.after s t = Message.weight := funext (Message.weight_after s t)
  rw [List.map_append, List.map_map, same, List.sum_append, List.map_cons, List.sum_cons]
  have := (s.take_sent m).2
  omega

/-- With no channel named twice, each update is a sample of the record as it stood, whatever the order (R115, R116; log 3). -/
theorem drain_records {fuel : Nat} {l : List Message} {s : State} (hfuel : (l.map Message.weight).sum ≤ fuel)
    (hl : (l.filterMap Message.channel).Nodup) :
    (∀ ch code, .update ch code ∈ l → (drain fuel l s).records[channelSource ch] = s.sampleOf ch code) ∧
    ∀ r, (∀ ch ∈ l.filterMap Message.channel, channelSource ch ≠ r) → (drain fuel l s).records[r] = s.records[r] := by
  induction fuel generalizing l s with
  | zero =>
    cases l with
    | nil => exact ⟨fun _ _ h => absurd h List.not_mem_nil, fun _ _ => rfl⟩
    | cons m rest =>
      have weights := s.take_weights s m rest
      omega
  | succ fuel ih =>
    by_cases hn : l = []
    · subst hn
      exact ⟨fun _ _ h => absurd h List.not_mem_nil, fun _ _ => by rw [drain_none]⟩
    obtain ⟨u, m, rest, hu, perm, step⟩ := drain_step fuel hn s
    have records : u.records = s.records := by rw [hu]; rfl
    have sample : u.sampleOf = s.sampleOf := by rw [hu]; rfl
    have scan := (u.take_recordsAside m).scan
    have weights := u.take_weights (u.take m).1 m rest
    rw [(perm.map Message.weight).sum_eq] at weights
    have names := (perm.filterMap Message.channel).nodup_iff.2 hl
    obtain ⟨updated, others⟩ := ih (l := rest.map (Message.after u (u.take m).1) ++ (u.take m).2) (s := (u.take m).1)
      (by omega) (by
        rw [State.take_channels]
        exact names.sublist ((List.sublist_cons_self m rest).filterMap _))
    rw [State.take_channels, ← step] at others
    rw [← step] at updated
    have apart {ch : Fin 18} (h : m.channel = some ch) : ch ∉ rest.filterMap Message.channel := by
      rw [List.filterMap_cons_some h] at names
      exact (List.nodup_cons.1 names).1
    refine ⟨fun ch code h => ?_, fun r hr => ?_⟩
    · rcases List.mem_cons.1 (perm.mem_iff.2 h) with rfl | h
      · rw [others _ fun x hx e => apart rfl (by rwa [← channelSource_inj.1 e]), u.take_update_record, sample]
      · have waits : ch ∈ rest.filterMap Message.channel := List.mem_filterMap.2 ⟨_, h, rfl⟩
        have unmoved := u.take_other_record (m := m) (r := channelSource ch) fun x hx e =>
          apart hx (by rwa [channelSource_inj.1 e])
        rw [updated ch code (List.mem_append_left _ (List.mem_map.2 ⟨_, h, rfl⟩)), ← sample]
        unfold State.sampleOf
        rw [unmoved, scan]
    · have named {ch : Fin 18} (h : ch ∈ (m :: rest).filterMap Message.channel) : channelSource ch ≠ r :=
        hr ch ((perm.filterMap _).mem_iff.1 h)
      rw [others r fun ch h => named (((List.sublist_cons_self m rest).filterMap _).subset h),
        u.take_other_record fun ch h => named (List.mem_filterMap.2 ⟨m, List.mem_cons_self, h⟩), records]

end Sys2Proof.Machine
end

section
/-! SUPPORT. Evaluations read no free value, so that any number of them, taken in an order that is free, is a fold of whole
evaluations (R25, R123; log 3). -/

namespace Sys2Proof.Machine

/-! ### Free values and evaluations (R24 to R43; log 3) -/

section
variable (s : State) (c : Nat)

@[simp] theorem State.withChoice_entries : (s.withChoice c).entries = s.entries := rfl
@[simp] theorem State.withChoice_switches : (s.withChoice c).switches = s.switches := rfl
@[simp] theorem State.withChoice_records : (s.withChoice c).records = s.records := rfl
@[simp] theorem State.withChoice_scan : (s.withChoice c).scan = s.scan := rfl
@[simp] theorem State.withChoice_seq : (s.withChoice c).seq = s.seq := rfl
@[simp] theorem State.withChoice_fault : (s.withChoice c).fault = s.fault := rfl
@[simp] theorem State.withChoice_choice : (s.withChoice c).choice = c := rfl
@[simp] theorem State.withChoice_twice (d : Nat) : (s.withChoice c).withChoice d = s.withChoice d := rfl
theorem State.withChoice_self : s.withChoice s.choice = s := rfl

theorem State.modEntry_withChoice (n : Fin 32) (f : Entry → Entry) :
    (s.withChoice c).modEntry n f = (s.modEntry n f).withChoice c := rfl

theorem State.post_withChoice (kind : EventKind) (source : Option Nat) (detail : Half) (cls : Fin 4) :
    (s.withChoice c).post kind source detail cls = (s.post kind source detail cls).withChoice c := rfl

end

theorem runDown_withChoice (cause : DownCause) (l : List SeqStep) (i : Nat) (s : State) (c : Nat) :
    runDown cause l i (s.withChoice c) = (runDown cause l i s).withChoice c := by
  induction l generalizing i s with
  | nil => rfl
  | cons t rest ih =>
    rw [runDown_cons, runDown_cons, State.withChoice_switches,
      show (s.withChoice c).downBegun cause i t = (s.downBegun cause i t).withChoice c from rfl]
    split
    · split
      · exact ih _ _
      · rfl
    · rfl

theorem State.powerDown_withChoice (s : State) (c : Nat) (cause : DownCause) :
    (s.withChoice c).powerDown cause = (s.powerDown cause).withChoice c :=
  runDown_withChoice _ _ _ (s.modSeq fun q =>
    { q.stopTimers with state := .poweringDown 0 .waiting cause, outcome := cause.outcome }) c

theorem State.seqAbort_withChoice (s : State) (c : Nat) (n : Fin 32) :
    (s.withChoice c).seqAbort n = (s.seqAbort n).withChoice c := by
  unfold State.seqAbort
  rw [State.withChoice_seq]
  split
  · exact s.powerDown_withChoice c _
  · exact s.powerDown_withChoice c _
  all_goals rfl

theorem State.lockRequest_withChoice (s : State) (c : Nat) (n : Fin 32) (mask : Byte) :
    (s.withChoice c).lockRequest n mask = (s.lockRequest n mask).withChoice c := by
  unfold State.lockRequest
  rw [State.withChoice_fault]
  split <;> rfl

theorem State.recover_withChoice (s : State) (c : Nat) (n : Fin 32) (cause : RecoverCause) :
    (s.withChoice c).recover n cause = (s.recover n cause).withChoice c := by
  rw [State.recover_eq, State.recover_eq]
  rfl

theorem State.qualify_withChoice (s : State) (c : Nat) (n : Fin 32) (d : DwellRecord) :
    (s.withChoice c).qualify n d = (s.qualify n d).withChoice c := by
  rw [State.qualify_eq, State.qualify_eq, State.withChoice_entries,
    show (s.withChoice c).qualifiedPart n d = (s.qualifiedPart n d).withChoice c from rfl,
    show (s.withChoice c).captureMade n d = s.captureMade n d from rfl]
  unfold State.tellQualified
  dsimp only
  rw [State.post_withChoice]
  cases s.entries[n].config.isLock <;> cases s.entries[n].config.isAbort <;>
    simp [State.lockRequest_withChoice, State.seqAbort_withChoice]

theorem State.evaluateIdle_withChoice (s : State) (c : Nat) (n : Fin 32) (trip : Bool) (d : DwellRecord) :
    (s.withChoice c).evaluateIdle n trip d = (s.evaluateIdle n trip d).withChoice c := by
  unfold State.evaluateIdle
  rw [State.withChoice_entries]
  split
  · split
    · exact s.qualify_withChoice c n d
    · rfl
  · rfl

theorem State.evaluatePending_withChoice (s : State) (c : Nat) (n : Fin 32) (trip : Bool) (d : DwellRecord) :
    (s.withChoice c).evaluatePending n trip d = (s.evaluatePending n trip d).withChoice c := by
  unfold State.evaluatePending
  dsimp only
  split
  · rfl
  · rw [State.modEntry_withChoice, State.withChoice_entries]
    split <;> rfl

theorem State.evaluateAsserted_withChoice (s : State) (c : Nat) (n : Fin 32) (recovered : Bool) :
    (s.withChoice c).evaluateAsserted n recovered = (s.evaluateAsserted n recovered).withChoice c := by
  unfold State.evaluateAsserted
  rw [State.withChoice_entries]
  dsimp only
  split
  · split
    · rfl
    · split
      · exact s.recover_withChoice c n _
      · rfl
  · rfl

theorem State.evaluate_withChoice (s : State) (c : Nat) (r : Fin 22) (n : Fin 32) :
    (s.withChoice c).evaluate r n = (s.evaluate r n).withChoice c := by
  have trip : (s.withChoice c).effectiveTrip = s.effectiveTrip := rfl
  have recovery : (s.withChoice c).effectiveRecovery = s.effectiveRecovery := rfl
  unfold State.evaluate
  rw [State.withChoice_entries, State.withChoice_records, State.withChoice_scan, trip, recovery]
  dsimp only
  split
  case isFalse => rfl
  split
  case h_1 => rfl
  case h_2 => exact s.evaluateIdle_withChoice c n _ _
  case h_3 => exact s.evaluatePending_withChoice c n _ _
  case h_4 => exact s.evaluateAsserted_withChoice c n _
  case h_5 | h_6 => split <;> rfl
  case h_7 => rfl

theorem State.evaluate_choice (s : State) (r : Fin 22) (n : Fin 32) : (s.evaluate r n).choice = s.choice := by
  rw [← s.withChoice_self, State.evaluate_withChoice, State.withChoice_choice, State.withChoice_choice]

/-! ### Evaluations in an order that is free (R25, R123; log 3) -/

/-- Entry and derived channel of an evaluation at a frame end (R123). -/
def State.evaluateDerived (s : State) (e : Fin 32 × Fin 4) : State := s.evaluate (derivedSource e.2) e.1

/-- The message of such an evaluation. -/
def derivedEvaluation (e : Fin 32 × Fin 4) : Message := .evaluate (derivedSource e.2) e.1

theorem State.foldl_evaluateDerived_withChoice (l : List (Fin 32 × Fin 4)) (s : State) (c : Nat) :
    l.foldl State.evaluateDerived (s.withChoice c) = (l.foldl State.evaluateDerived s).withChoice c := by
  induction l generalizing s with
  | nil => rfl
  | cons e l ih =>
    rw [List.foldl_cons, State.evaluateDerived, State.evaluate_withChoice]
    exact ih _

/-- Evaluations that wait are taken one after the other, each whole, in some order; the counter of free values advances at each
choice between two or more. -/
theorem drain_evaluations {fuel : Nat} {l : List (Fin 32 × Fin 4)} (hfuel : l.length ≤ fuel) (s : State) :
    ∃ order : List (Fin 32 × Fin 4), order.Perm l ∧ drain fuel (l.map derivedEvaluation) s =
      (order.foldl State.evaluateDerived s).withChoice (s.choice + (order.length - 1)) := by
  induction fuel generalizing l s with
  | zero =>
    rw [List.length_eq_zero_iff.1 (Nat.le_zero.1 hfuel)]
    exact ⟨[], .nil, rfl⟩
  | succ fuel ih =>
    by_cases hn : l = []
    · subst hn
      exact ⟨[], .nil, rfl⟩
    obtain ⟨u, m, rest, hu, perm, step⟩ := drain_step fuel (l := l.map derivedEvaluation) (by simpa using hn) s
    rw [← congrFun (congrFun (List.eq_map_comp_perm derivedEvaluation) _) _] at perm
    obtain ⟨_ | ⟨e, others⟩, hm, hl⟩ := perm
    · cases hm
    obtain ⟨rfl, rfl⟩ := List.cons.inj hm
    have size : others.length + 1 = l.length := hl.length_eq
    have waiting : (others.map derivedEvaluation).map (Message.after u (u.take (derivedEvaluation e)).1) ++
        (u.take (derivedEvaluation e)).2 = others.map derivedEvaluation := by
      rw [List.map_map]
      exact List.append_nil _
    have taken : (u.take (derivedEvaluation e)).1 = (s.evaluateDerived e).withChoice u.choice := by
      rw [hu]
      exact s.evaluate_withChoice _ _ _
    obtain ⟨order, horder, done⟩ := ih (l := others) (by omega) ((s.evaluateDerived e).withChoice u.choice)
    refine ⟨e :: order, (horder.cons e).trans hl, ?_⟩
    have length := horder.length_eq
    rw [step, waiting, taken, done, State.foldl_evaluateDerived_withChoice, hu]
    simp only [State.withChoice_twice, State.withChoice_choice, List.length_map, List.length_cons, List.foldl_cons]
    congr 1
    omega

end Sys2Proof.Machine
end

section
/-! SUPPORT. The figures of a sample, and what a frame end makes of each derived channel (R114 to R116, R122, R123). -/

namespace Sys2Proof.Machine

/-! ### The figures of a sample (R114 to R116) -/

theorem minReading_toInt (x y : Reading) : (minReading x y).toInt = min x.toInt y.toInt := by
  unfold minReading
  split <;> omega

theorem maxReading_toInt (x y : Reading) : (maxReading x y).toInt = max x.toInt y.toInt := by
  unfold maxReading
  split <;> omega

theorem satSucc16_toNat (c : Half) : (satSucc16 c).toNat = min (c.toNat + 1) 65535 := by
  unfold satSucc16
  split
  · rename_i h
    rw [h]
    rfl
  · bv_omega

/-- Division toward zero by a positive number lies between zero and the number divided. -/
theorem tdiv_between (x : Int) {d : Int} (hd : 0 < d) : min x 0 ≤ x.tdiv d ∧ x.tdiv d ≤ max x 0 := by
  obtain hx | hx := le_total 0 x
  · have := Int.tdiv_nonneg hx hd.le
    have := Int.tdiv_le_self d hx
    omega
  · have := Int.tdiv_nonneg (Int.neg_nonneg_of_nonpos hx) hd.le
    have := Int.tdiv_le_self d (Int.neg_nonneg_of_nonpos hx)
    rw [Int.neg_tdiv] at *
    omega

/-- A moved average lies between the average and the reading, and so within the range (R116). -/
theorem movedAverage_toInt (average r : Reading) (k : Nat) :
    (movedAverage average r k).toInt = average.toInt + (r.toInt - average.toInt).tdiv (2 ^ k) := by
  have between := tdiv_between (r.toInt - average.toInt) (d := 2 ^ k) (by positivity)
  have := average.le_toInt
  have := average.toInt_lt
  have := r.le_toInt
  have := r.toInt_lt
  unfold movedAverage
  rw [BitVec.toInt_ofInt_eq_self (by decide)] <;> omega

theorem isClipped_eq (x : Int) : isClipped x = decide (x < -32768 ∨ 32767 < x) := by
  simp [isClipped]

/-- What a sample makes of a record (R114 to R116, R122). -/
theorem MeasRecord.sample_figures (m : MeasRecord) (value : Int) (k : Nat) (frame : Word) :
    let r : Int := max (-32768) (min value 32767)
    let new := m.sample value k frame
    new.valid = true ∧ new.stale = false ∧ new.sampleFrame = frame ∧ new.latest.toInt = r ∧
    new.clipped = decide (value < -32768 ∨ 32767 < value) ∧
    (m.valid = false → new.average.toInt = r ∧ new.minimum.toInt = r ∧ new.maximum.toInt = r ∧ new.count = 1) ∧
    (m.valid = true →
      new.average.toInt = m.average.toInt + (r - m.average.toInt).tdiv (2 ^ k) ∧
      new.minimum.toInt = min r m.minimum.toInt ∧ new.maximum.toInt = max r m.maximum.toInt ∧
      new.count.toNat = min (m.count.toNat + 1) 65535) := by
  rw [← saturate_toInt, ← isClipped_eq]
  unfold MeasRecord.sample
  cases hv : m.valid with
  | false => exact ⟨rfl, rfl, rfl, rfl, rfl, fun _ => ⟨rfl, rfl, rfl, rfl⟩, fun h => by cases h⟩
  | true =>
    exact ⟨rfl, rfl, rfl, rfl, rfl, fun h => (by cases h), fun _ =>
      ⟨movedAverage_toInt .., minReading_toInt .., maxReading_toInt .., satSucc16_toNat _⟩⟩

/-! ### Derived channels (R121 to R123) -/

/-- The value of a derived channel whose operands were both sampled in the frame that ends, before saturation (R122, R123). -/
def State.derivedValue (s : State) (d : Fin 4) : Option Int :=
  if s.derivedInForce[d].op = .none then none
  else
    match s.operand s.derivedInForce[d].a, s.operand s.derivedInForce[d].b with
    | some a, some b => some (s.derivedInForce[d].op.value a b)
    | some _, none => none
    | none, _ => none

/-- The record of a derived channel after the frame end (R123). -/
def State.recordDerived (s : State) (d : Fin 4) : MeasRecord :=
  if s.derivedInForce[d].op = .none then s.records[derivedSource d]
  else
    (s.derivedValue d).elim { s.records[derivedSource d] with stale := true } fun value =>
      s.records[derivedSource d].sample value s.derivedInForce[d].weight.toNat s.scan.frameNumber

theorem State.deriveOne_eq (s : State) (d : Fin 4) :
    s.deriveOne d = (s.modRecord (derivedSource d) fun _ => s.recordDerived d, (s.derivedValue d).isSome) := by
  unfold State.deriveOne State.recordDerived State.derivedValue
  dsimp only
  split
  · simp [State.modRecord]
  · cases s.operand s.derivedInForce[d].a <;> cases s.operand s.derivedInForce[d].b <;> rfl

/-- The entries that evaluate a derived channel once the frame end has computed it (R123). -/
def State.derivedEvaluations (s : State) (d : Fin 4) : List (Fin 32 × Fin 4) :=
  if (s.derivedValue d).isSome then (s.watchers (derivedSource d)).map fun n => (n, d) else []

/-- What the derived channels in turn make of the records, from `u`, which differs from `s` in records of derived channels that
are not among them (R123). -/
structure State.Derived (s u : State) (l : List (Fin 4)) (t : State) : Prop where
  frame : t = { s with records := t.records }
  channel : ∀ ch, t.records[channelSource ch] = s.records[channelSource ch]
  derived : ∀ d, t.records[derivedSource d] = if d ∈ l then s.recordDerived d else u.records[derivedSource d]

/-- The record and the value depend on the state in the record itself and those of channels alone. -/
theorem State.derived_congr {s u : State} (hu : u = { s with records := u.records })
    (hch : ∀ ch, u.records[channelSource ch] = s.records[channelSource ch]) {d : Fin 4}
    (hd : u.records[derivedSource d] = s.records[derivedSource d]) :
    u.recordDerived d = s.recordDerived d ∧ u.derivedValue d = s.derivedValue d ∧
      u.derivedEvaluations d = s.derivedEvaluations d := by
  have operand (b : Byte) : u.operand b = s.operand b := by
    unfold State.operand
    cases numberBelow 18 b with
    | none => rfl
    | some ch =>
      dsimp only
      rw [hch, hu]
  have value : u.derivedValue d = s.derivedValue d := by
    unfold State.derivedValue
    simp only [operand]
    rw [hu]
  refine ⟨?_, value, ?_⟩
  · unfold State.recordDerived
    rw [value, hd, hu]
  · unfold State.derivedEvaluations
    rw [value, hu]
    rfl

theorem deriveFrom_derived {s u : State} {l : List (Fin 4)} (hl : l.Nodup) (hu : u = { s with records := u.records })
    (hch : ∀ ch, u.records[channelSource ch] = s.records[channelSource ch])
    (hd : ∀ d ∈ l, u.records[derivedSource d] = s.records[derivedSource d]) :
    s.Derived u l (deriveFrom l u).1 ∧
      (deriveFrom l u).2 = (l.flatMap s.derivedEvaluations).map derivedEvaluation := by
  induction l generalizing u with
  | nil => exact ⟨⟨hu, hch, fun d => rfl⟩, rfl⟩
  | cons d l ih =>
    obtain ⟨hout, hl⟩ := List.nodup_cons.1 hl
    obtain ⟨hrecord, hvalue, hevals⟩ := State.derived_congr hu hch (hd d List.mem_cons_self)
    obtain ⟨v, hv⟩ : ∃ v, v = u.modRecord (derivedSource d) fun _ => s.recordDerived d := ⟨_, rfl⟩
    have own : v.records[derivedSource d] = s.recordDerived d := by
      rw [hv]
      exact (getElem_set_fin ..).trans (if_pos rfl)
    have away (r : Fin 22) (hr : derivedSource d ≠ r) : v.records[r] = u.records[r] := by
      rw [hv]
      exact (getElem_set_fin ..).trans (if_neg hr)
    have others (e : Fin 4) (he : e ≠ d) : v.records[derivedSource e] = u.records[derivedSource e] :=
      away _ fun h => he (derivedSource_inj h).symm
    obtain ⟨done, sent⟩ := ih hl (u := v) (by rw [hv, hu]; rfl)
      (fun ch => (away _ (derivedSource_ne_channelSource d ch)).trans (hch ch)) fun e he =>
        (others e fun h => hout (h ▸ he)).trans (hd e (List.mem_cons_of_mem d he))
    have one : u.deriveOne d = (v, (s.derivedValue d).isSome) := by
      rw [State.deriveOne_eq, hrecord, hvalue, hv]
    have watchers : v.watchers (derivedSource d) = s.watchers (derivedSource d) := by
      rw [hv, hu]
      rfl
    unfold deriveFrom
    dsimp only
    rw [one]
    refine ⟨⟨done.frame, done.channel, fun e => ?_⟩, ?_⟩
    · rw [done.derived]
      by_cases he : e = d
      · rw [he, if_neg hout, if_pos List.mem_cons_self, own]
      · simp only [List.mem_cons, he, false_or, others e he]
    · dsimp only
      rw [sent, watchers, List.flatMap_cons, List.map_append]
      congr 1
      unfold State.derivedEvaluations
      split
      · rw [List.map_map]
        rfl
      · rfl

theorem derivedEvaluations_weight (l : List (Fin 32 × Fin 4)) :
    ((l.map derivedEvaluation).map Message.weight).sum = l.length := by
  rw [List.map_map, show Message.weight ∘ derivedEvaluation = fun _ => 1 from rfl]
  simp

/-- The frame end at the Measurement Table: the records of the derived channels, and then the evaluations on them in an order
that is free (R123; log 3). -/
theorem State.derivedFrameEnd_order (s : State) : ∃ order : List (Fin 32 × Fin 4),
    order.Perm ((List.finRange 4).flatMap s.derivedEvaluations) ∧
    (∀ ch, s.derivedFrameEnd.records[channelSource ch] = s.records[channelSource ch]) ∧
    (∀ d, s.derivedFrameEnd.records[derivedSource d] = s.recordDerived d) ∧
    s.derivedFrameEnd =
      (order.foldl State.evaluateDerived { s with records := s.derivedFrameEnd.records }).withChoice
        (s.choice + (order.length - 1)) := by
  obtain ⟨done, sent⟩ := deriveFrom_derived (s := s) (List.nodup_finRange 4) rfl (fun _ => rfl) fun _ _ => rfl
  unfold State.derivedFrameEnd State.takeAll
  dsimp only
  rw [sent]
  generalize (deriveFrom (List.finRange 4) s).1 = t at done
  obtain ⟨order, perm, drained⟩ := drain_evaluations (l := (List.finRange 4).flatMap s.derivedEvaluations)
    (le_of_eq (derivedEvaluations_weight _).symm) t
  rw [drained]
  have records : ((order.foldl State.evaluateDerived t).withChoice (t.choice + (order.length - 1))).records = t.records :=
    (Undisturbed.foldl (f := State.evaluateDerived) (fun u e => u.evaluate_undisturbed _ e.1) order t).records
  refine ⟨order, perm, ?_⟩
  rw [records]
  refine ⟨done.channel, fun d => (done.derived d).trans (if_pos (List.mem_finRange d)), ?_⟩
  rw [← done.frame]
  have choice : t.choice = s.choice := by rw [done.frame]
  rw [choice]

end Sys2Proof.Machine
end

section
/-! SUPPORT. The completion of a step and the end of a frame (R106 to R108). -/

namespace Sys2Proof.Machine

/-! ### The codes of a step and the derived channels (R106, R107) -/

theorem State.handOver_recordsAside (s : State) (x : StepCodes) : RecordsAside s (s.handOver x) := by
  unfold State.handOver
  split
  · exact (Undisturbed.refl s).recordsAside
  · exact drain_recordsAside _ _ s

theorem State.derivedFrameEnd_recordsAside (s : State) : RecordsAside s s.derivedFrameEnd := by
  obtain ⟨order, _, _, _, ended⟩ := s.derivedFrameEnd_order
  have evaluated : Undisturbed { s with records := s.derivedFrameEnd.records }
      (order.foldl State.evaluateDerived { s with records := s.derivedFrameEnd.records }) :=
    .foldl (fun t e => t.evaluate_undisturbed (derivedSource e.2) e.1) order _
  have done := evaluated.trans (State.withChoice_undisturbed _ (s.choice + (order.length - 1)))
  rwa [← ended] at done

/-- The state once the codes of the step in progress are handed over, the engine's messages taken first (R106; log 4). -/
def State.stepTaken (s : State) (x : StepCodes) : State := s.receiveEngine.handOver x

theorem State.stepTaken_recordsAside (s : State) (x : StepCodes) : RecordsAside s (s.stepTaken x) :=
  (s.receiveWhere_undisturbed _).recordsAside.trans (State.handOver_recordsAside _ x)

/-- The state once the last step's codes are handed over and the derived channels dealt with (R107). -/
def State.frameTaken (s : State) (x : StepCodes) : State := (s.stepTaken x).derivedFrameEnd

theorem State.frameTaken_recordsAside (s : State) (x : StepCodes) : RecordsAside s (s.frameTaken x) :=
  (s.stepTaken_recordsAside x).trans (State.derivedFrameEnd_recordsAside _)

/-! ### What a completion does (R106, R107, R108) -/

/-- The frame end by the pending trigger and the mode (R107). -/
theorem State.frameEnd_eq (s : State) : s.frameEnd =
    if s.scan.pendingTrigger = true then ({ s.derivedFrameEnd with
      scan := { s.scan with scanning := false, stepIndex := 0, sampled := none, pendingTrigger := false } } : State).frameStart
    else
      let idle : State := { s.derivedFrameEnd with scan := { s.scan with scanning := false, stepIndex := 0, sampled := none } }
      if s.scan.mode = .stopped then idle.becomeQuiet else idle := by
  rw [← s.derivedFrameEnd_recordsAside.scan]
  rfl

section
variable {s : State} {x : StepCodes}

theorem scanStepComplete_sampled (h : s.scan.scanning = true) (hx : s.scan.sampled = some x) : scanStepComplete s =
    if s.scan.stepIndex + 1 < s.scan.list.length then
      { s.stepTaken x with scan := { s.scan with stepIndex := s.scan.stepIndex + 1, sampled := none } }
    else (s.stepTaken x).frameEnd := by
  unfold scanStepComplete
  rw [hx]
  dsimp only
  rw [if_pos h, ← (s.stepTaken_recordsAside x).scan]
  rfl

theorem scanStepComplete_next (h : s.scan.scanning = true) (hx : s.scan.sampled = some x)
    (hn : s.scan.stepIndex + 1 < s.scan.list.length) : scanStepComplete s =
      { s.stepTaken x with scan := { s.scan with stepIndex := s.scan.stepIndex + 1, sampled := none } } :=
  (scanStepComplete_sampled h hx).trans (if_pos hn)

theorem scanStepComplete_last (h : s.scan.scanning = true) (hx : s.scan.sampled = some x)
    (hn : s.scan.list.length ≤ s.scan.stepIndex + 1) : scanStepComplete s =
      if s.scan.pendingTrigger = true then ({ s.frameTaken x with
        scan := { s.scan with scanning := false, stepIndex := 0, sampled := none, pendingTrigger := false } } : State).frameStart
      else
        let idle : State := { s.frameTaken x with scan := { s.scan with scanning := false, stepIndex := 0, sampled := none } }
        if s.scan.mode = .stopped then idle.becomeQuiet else idle := by
  rw [scanStepComplete_sampled h hx, if_neg (by omega), State.frameEnd_eq, (s.stepTaken_recordsAside x).scan]
  rfl

end

/-- A completion with nothing in progress is no event (log 11). -/
theorem scanStepComplete_idle {s : State} (h : s.scan.scanning = false ∨ s.scan.sampled = none) : scanStepComplete s = s := by
  unfold scanStepComplete
  split
  · rfl
  · rename_i hx
    rw [if_neg]
    simpa [hx] using h

end Sys2Proof.Machine
end

section
/-! SUPPORT. Every step keeps the Scan Unit's flags, period and pending loads sound, and the records ordered, with those of
absent channels invalid (R102, R104, R108, R116, R117). -/

namespace Sys2Proof.Machine

/-! ### What a step keeps -/

/-- The passage keeps the Scan Unit and the records sound. -/
structure ScanKept (s t : State) : Prop where
  scan : s.scanSound → t.scanSound
  records : s.recordsSound → t.recordsSound

theorem ScanKept.refl (s : State) : ScanKept s s := ⟨id, id⟩

theorem ScanKept.trans {s t u : State} (a : ScanKept s t) (b : ScanKept t u) : ScanKept s u :=
  ⟨b.scan ∘ a.scan, b.records ∘ a.records⟩

/-- The Scan Unit and the records do not move, and no load comes to wait at an entry. -/
theorem ScanKept.of_loads {s t : State} (hscan : t.scan = s.scan) (hrecords : t.records = s.records)
    (hloads : ∀ n : Fin 32, s.entries[n].pendingLoad = none → t.entries[n].pendingLoad = none) : ScanKept s t := by
  refine ⟨fun hs => ?_, fun hr => ?_⟩
  · obtain ⟨flag, timer, period, quiet⟩ := hs
    unfold State.scanSound
    rw [hscan]
    refine ⟨flag, timer, period, fun hq => ?_⟩
    obtain ⟨list, channel, loads⟩ := quiet hq
    exact ⟨list, channel, fun n => hloads n (loads n)⟩
  · unfold State.recordsSound
    rw [hscan, hrecords]
    exact hr

theorem ScanStays.scanKept {s t : State} (h : ScanStays s t) : ScanKept s t :=
  .of_loads h.scan h.records fun n hn => (h.loads n).trans hn

theorem takeCommand_scanKept {s : State} {body : State → Reply} (h : ScanKept s (body s).state) :
    ScanKept s (takeCommand body s) := by
  unfold takeCommand
  split
  · exact h.trans ⟨id, id⟩
  · exact .refl s

theorem takeWrite_scanKept {s : State} {a : Byte} {f : State → State} (h : ScanKept s (f s)) :
    ScanKept s (takeWrite a f s) := by
  unfold takeWrite
  split
  · exact h.trans ⟨id, id⟩
  · exact .refl s

theorem awake_scanKept {s : State} {f : State → State} (h : ScanKept s (f s)) : ScanKept s (awake f s) := by
  unfold awake
  split
  · exact .refl s
  · exact h

/-! ### The Scan Unit (R102, R104, R108) -/

/-- In IDLE no trigger is pending, the frame timer runs exactly in TIMED mode, and the period is at least 1.0 ms. -/
structure ScanUnit.Running (u : ScanUnit) : Prop where
  flag : u.scanning = false → u.pendingTrigger = false
  timer : u.frameTimer.isSome = true ↔ u.mode = .timed
  period : 10 ≤ u.period.toNat

theorem State.scanSound.running {s : State} (h : s.scanSound) : s.scan.Running := by
  obtain ⟨flag, timer, period, _⟩ := h
  exact ⟨flag, timer, period⟩

/-- A quiet Scan Unit leaves no load pending (R108). -/
theorem State.scanSound.settled {s : State} (h : s.scanSound) (hq : s.scan.quiet = true) : s.scan.pendingList = none ∧
    s.scan.pendingChannel = none ∧ ∀ n : Fin 32, s.entries[n].pendingLoad = none := by
  obtain ⟨_, _, _, settled⟩ := h
  exact settled hq

/-- While the Scan Unit is not quiet, loads may be pending (R108). -/
theorem ScanUnit.Running.scanSound_of_busy {s : State} (h : s.scan.Running) (hq : s.scan.quiet = false) : s.scanSound := by
  refine ⟨h.flag, h.timer, h.period, fun hn => ?_⟩
  rw [hq] at hn
  cases hn

theorem ScanUnit.quiet_of_scanning {u : ScanUnit} (h : u.scanning = true) : u.quiet = false := by
  simp [ScanUnit.quiet, h]

theorem ScanUnit.quiet_of_mode {u : ScanUnit} (h : u.mode ≠ .stopped) : u.quiet = false := by
  simp [ScanUnit.quiet, h]

/-- An application moment leaves no load at an entry (R16 to R18). -/
theorem State.dealt_pendingLoad (s : State) (n : Fin 32) : (s.dealt n).pendingLoad = none := by
  unfold State.dealt
  split
  · assumption
  · split <;> rfl

theorem State.loadsDealt_scanSound {s : State} (h : s.scan.Running) : s.loadsDealt.scanSound := by
  refine ⟨h.flag, h.timer, h.period, fun _ => ⟨rfl, rfl, fun n => ?_⟩⟩
  rw [State.loadsDealt_entries]
  exact s.dealt_pendingLoad n

theorem State.becomeQuiet_scanSound {s : State} (h : s.scan.Running) : s.becomeQuiet.scanSound := by
  rw [State.becomeQuiet_eq]
  exact State.loadsDealt_scanSound h

theorem State.frameStart_scan (s : State) : s.frameStart.scan =
    { s.scan.settled with frameNumber := s.scan.frameNumber + 1, scanning := true, stepIndex := 0, sampled := none } := by
  rw [s.frameStart_parts.1]

theorem State.frameStart_scanSound {s : State} (h : s.scan.Running) : s.frameStart.scanSound := by
  have running : s.frameStart.scan.Running := by
    rw [State.frameStart_scan]
    exact ⟨fun hn => (by cases hn), h.timer, h.period⟩
  refine running.scanSound_of_busy (ScanUnit.quiet_of_scanning ?_)
  rw [State.frameStart_scan]

/-! ### The records (R116, R117) -/

/-- A valid record has minimum ≤ latest reading ≤ maximum (R116). -/
def MeasRecord.Ordered (m : MeasRecord) : Prop :=
  m.valid = true → m.minimum.toInt ≤ m.latest.toInt ∧ m.latest.toInt ≤ m.maximum.toInt

theorem MeasRecord.invalidated_ordered (m : MeasRecord) : m.invalidated.Ordered := fun h => by cases h

/-- A sample is ordered, whatever the record was: the extremes take it in (R116). -/
theorem MeasRecord.sample_ordered (m : MeasRecord) (value : Int) (k : Nat) (frame : Word) :
    (m.sample value k frame).Ordered := by
  obtain ⟨_, _, _, latest, _, first, later⟩ := m.sample_figures value k frame
  intro _
  rw [latest]
  cases hv : m.valid with
  | false =>
    obtain ⟨_, minimum, maximum, _⟩ := first hv
    rw [minimum, maximum]
    exact ⟨le_refl _, le_refl _⟩
  | true =>
    obtain ⟨_, minimum, maximum, _⟩ := later hv
    rw [minimum, maximum]
    exact ⟨min_le_left _ _, le_max_left _ _⟩

/-- Every record is that of a channel or of a derived channel (R113). -/
theorem source_cases (r : Fin 22) : (∃ ch, r = channelSource ch) ∨ ∃ d, r = derivedSource d := by
  rcases Nat.lt_or_ge r.val 18 with h | h
  · exact .inl ⟨⟨r.val, h⟩, rfl⟩
  · exact .inr ⟨⟨r.val - 18, by omega⟩, Fin.ext (by simp [derivedSource]; omega)⟩

theorem State.recordsSound_iff (s : State) : s.recordsSound ↔
    (∀ ch : Fin 18, s.records[channelSource ch].Ordered ∧
      (ch ∉ listChannels s.scan.list → s.records[channelSource ch].valid = false)) ∧
    ∀ d : Fin 4, s.records[derivedSource d].Ordered := by
  constructor
  · exact fun h => ⟨fun ch => ⟨h.1 _, h.2 ch⟩, fun d => h.1 _⟩
  · rintro ⟨channels, derived⟩
    refine ⟨fun r => ?_, fun ch => (channels ch).2⟩
    rcases source_cases r with ⟨ch, rfl⟩ | ⟨d, rfl⟩
    · exact (channels ch).1
    · exact derived d

theorem State.invalidated_channel (s : State) (l : List (Fin 18)) (ch : Fin 18) :
    (s.invalidated l).records[channelSource ch] =
      if ch ∈ l then s.records[channelSource ch].invalidated else s.records[channelSource ch] := by
  simp only [State.invalidated, Fin.getElem_fin, Vector.getElem_ofFn, Fin.eta, channelSource_inj, exists_eq_right]

theorem State.invalidated_derived (s : State) (l : List (Fin 18)) (d : Fin 4) :
    (s.invalidated l).records[derivedSource d] = s.records[derivedSource d] := by
  have none : ¬∃ ch ∈ l, channelSource ch = derivedSource d := fun ⟨ch, _, h⟩ => derivedSource_ne_channelSource d ch h.symm
  simp only [State.invalidated, Fin.getElem_fin, Vector.getElem_ofFn, Fin.eta, none, if_false]

/-- A new list and the records of the channels it leaves out, or those of a channel loaded (R97, R100, R117). -/
theorem State.recordsSound.invalidated {s t : State} (h : s.recordsSound) {l : List (Fin 18)}
    (hch : ∀ ch, t.records[channelSource ch] =
      if ch ∈ l then s.records[channelSource ch].invalidated else s.records[channelSource ch])
    (hd : ∀ d, t.records[derivedSource d] = s.records[derivedSource d])
    (hl : ∀ ch, ch ∉ listChannels t.scan.list → ch ∈ l ∨ ch ∉ listChannels s.scan.list) : t.recordsSound := by
  rw [State.recordsSound_iff] at h ⊢
  obtain ⟨channels, derived⟩ := h
  refine ⟨fun ch => ?_, fun d => by rw [hd]; exact derived d⟩
  rw [hch]
  split
  · exact ⟨MeasRecord.invalidated_ordered _, fun _ => rfl⟩
  · rename_i hc
    exact ⟨(channels ch).1, fun hn => (channels ch).2 ((hl ch hn).resolve_left hc)⟩

/-- The pending loads come into force with the records they invalidate (R97, R100, R117). -/
theorem State.loadsDealt_recordsSound {s : State} (h : s.recordsSound) : s.loadsDealt.recordsSound := by
  refine h.invalidated s.loadsDealt_channel s.loadsDealt_derived fun ch hn => ?_
  have scan : s.loadsDealt.scan.list = s.scan.pendingList.getD s.scan.list := rfl
  rw [scan] at hn
  rw [ScanUnit.mem_gone]
  cases hp : s.scan.pendingList with
  | none => exact .inr (by rwa [hp] at hn)
  | some l => exact .inl (.inl ⟨rfl, by rwa [hp] at hn⟩)

theorem State.becomeQuiet_recordsSound {s : State} (h : s.recordsSound) : s.becomeQuiet.recordsSound := by
  rw [State.becomeQuiet_eq]
  exact State.loadsDealt_recordsSound h

theorem State.frameStart_recordsSound {s : State} (h : s.recordsSound) : s.frameStart.recordsSound := by
  obtain ⟨_, channel, derived⟩ := s.frameStart_parts
  have before := h
  have dealt := State.loadsDealt_recordsSound h
  rw [State.recordsSound_iff] at before dealt ⊢
  refine ⟨fun ch => ?_, fun d => ?_⟩
  · rw [channel, State.frameStart_scan]
    exact dealt.1 ch
  · rw [(derived d).2]
    unfold State.recordInForce
    split
    · exact before.2 d
    · exact MeasRecord.invalidated_ordered _

/-! ### Frames (R104 to R108) -/

theorem State.frameStart_scanKept (s : State) : ScanKept s s.frameStart :=
  ⟨fun h => State.frameStart_scanSound h.running, State.frameStart_recordsSound⟩

theorem State.trigger_scanKept (s : State) : ScanKept s s.trigger.1 := by
  unfold State.trigger
  split
  · exact s.frameStart_scanKept
  rename_i hs
  have scanning : s.scan.scanning = true := by simpa using hs
  split
  · refine ⟨fun h => ?_, id⟩
    refine ScanUnit.Running.scanSound_of_busy ⟨fun hn => ?_, h.running.timer, h.running.period⟩
      (ScanUnit.quiet_of_scanning scanning)
    cases scanning.symm.trans hn
  · exact (s.post_undisturbed _ _ _ _).toScanStays.scanKept

/-- A step hands over a code for each of its channels (R106). -/
theorem stepUpdates_channels (st : ScanStep) (x : StepCodes) :
    (stepUpdates st x).filterMap Message.channel = st.channels := by
  obtain ⟨a, b, c, settle⟩ := st
  cases a <;> cases b <;> cases c <;> rfl

/-- An update leaves its record ordered (R116). -/
theorem State.take_ordered (s : State) {m : Message} {ch : Fin 18} (h : m.channel = some ch) :
    (s.take m).1.records[channelSource ch].Ordered := by
  cases m with
  | update ch' code =>
    cases h
    rw [State.take_update_record]
    exact MeasRecord.sample_ordered _ _ _ _
  | evaluate | watch => cases h

/-- The codes of a step reach channels of the list in force, whose records they leave ordered (R98, R106, R116). -/
theorem State.handOver_recordsSound {s : State} (h : s.recordsSound) (x : StepCodes) : (s.handOver x).recordsSound := by
  unfold State.handOver
  split
  · exact h
  rename_i st hst
  refine (drain_keeps_of (P := fun t => RecordsAside s t ∧ t.recordsSound)
    (Q := fun m => ∀ ch, m.channel = some ch → ch ∈ listChannels s.scan.list) ?_ ?_ ?_ _
    ⟨(Undisturbed.refl s).recordsAside, h⟩ ?_).2
  · exact fun t c ht => ⟨ht.1.trans (t.withChoice_undisturbed c).recordsAside, ht.2⟩
  · exact fun t u m hm ch => by rw [Message.channel_after]; exact hm ch
  · rintro t m ⟨aside, sound⟩ hm
    refine ⟨⟨aside.trans (t.take_recordsAside m), ?_⟩, fun y hy ch hc => ?_⟩
    · have scan := (t.take_recordsAside m).scan
      have listed : listChannels t.scan.list = listChannels s.scan.list := congrArg (fun u => listChannels u.list) aside.scan
      rw [State.recordsSound_iff] at sound ⊢
      rw [scan]
      refine ⟨fun ch => ?_, fun d => ?_⟩
      · by_cases hc : m.channel = some ch
        · refine ⟨?_, fun hn => absurd (hm ch hc) (by rwa [← listed])⟩
          exact t.take_ordered hc
        · rw [t.take_other_record fun ch' h' e => hc (by rwa [← channelSource_inj.1 e])]
          exact sound.1 ch
      · rw [t.take_other_record fun ch' _ e => derivedSource_ne_channelSource d ch' e.symm]
        exact sound.2 d
    · rw [(t.take_sent m).1 y hy] at hc
      cases hc
  · intro m hm ch hc
    have inStep : ch ∈ st.channels := stepUpdates_channels st x ▸ List.mem_filterMap.2 ⟨m, hm, hc⟩
    exact List.mem_flatMap.2 ⟨st, List.mem_of_getElem? hst, inStep⟩

/-- A derived channel is not computed, computed as a sample, or stale with its figures (R123). -/
theorem State.recordDerived_ordered {s : State} {d : Fin 4} (h : s.records[derivedSource d].Ordered) :
    (s.recordDerived d).Ordered := by
  unfold State.recordDerived
  split
  · exact h
  · cases s.derivedValue d with
    | none => exact h
    | some value => exact MeasRecord.sample_ordered _ _ _ _

theorem State.derivedFrameEnd_recordsSound {s : State} (h : s.recordsSound) : s.derivedFrameEnd.recordsSound := by
  obtain ⟨_, _, channel, derived, _⟩ := s.derivedFrameEnd_order
  rw [State.recordsSound_iff] at h ⊢
  refine ⟨fun ch => ?_, fun d => ?_⟩
  · rw [channel, s.derivedFrameEnd_recordsAside.scan]
    exact h.1 ch
  · rw [derived]
    exact State.recordDerived_ordered (h.2 d)

theorem State.stepTaken_recordsSound {s : State} (h : s.recordsSound) (x : StepCodes) : (s.stepTaken x).recordsSound :=
  State.handOver_recordsSound ((s.receiveWhere_undisturbed _).toScanStays.scanKept.records h) x

/-- A completion begins the next step, or ends the frame with the flag taken (R106, R107). -/
theorem scanStepComplete_scanKept (s : State) : ScanKept s (scanStepComplete s) := by
  by_cases idle : s.scan.scanning = false ∨ s.scan.sampled = none
  · rw [scanStepComplete_idle idle]
    exact .refl s
  obtain ⟨hs, hx⟩ := not_or.1 idle
  have scanning : s.scan.scanning = true := by simpa using hs
  obtain ⟨x, hx⟩ := Option.ne_none_iff_exists'.1 hx
  rcases Nat.lt_or_ge (s.scan.stepIndex + 1) s.scan.list.length with hn | hn
  · rw [scanStepComplete_next scanning hx hn]
    refine ⟨fun h => ?_, fun h => ?_⟩
    · exact ScanUnit.Running.scanSound_of_busy ⟨h.running.flag, h.running.timer, h.running.period⟩
        (ScanUnit.quiet_of_scanning scanning)
    · have sound := State.stepTaken_recordsSound h x
      unfold State.recordsSound at sound
      rw [(s.stepTaken_recordsAside x).scan] at sound
      exact sound
  · have records (h : s.recordsSound) (u : ScanUnit) (hu : u.list = s.scan.list) :
        ({ s.frameTaken x with scan := u } : State).recordsSound := by
      have sound := State.derivedFrameEnd_recordsSound (State.stepTaken_recordsSound h x)
      refine ⟨sound.1, fun ch hc => sound.2 ch ?_⟩
      rw [show (s.stepTaken x).derivedFrameEnd.scan = s.scan from (s.frameTaken_recordsAside x).scan, ← hu]
      exact hc
    rw [scanStepComplete_last scanning hx hn]
    split
    · refine ⟨fun h => ?_, fun h => ?_⟩
      · exact State.frameStart_scanSound ⟨fun _ => rfl, h.running.timer, h.running.period⟩
      · exact State.frameStart_recordsSound (records h _ rfl)
    rename_i flag
    have idle (h : s.scanSound) :
        ({ s.scan with scanning := false, stepIndex := 0, sampled := none } : ScanUnit).Running :=
      ⟨fun _ => by simpa using flag, h.running.timer, h.running.period⟩
    dsimp only
    split
    · exact ⟨fun h => State.becomeQuiet_scanSound (idle h), fun h => State.becomeQuiet_recordsSound (records h _ rfl)⟩
    · rename_i mode
      exact ⟨fun h => (idle h).scanSound_of_busy (ScanUnit.quiet_of_mode mode), fun h => records h _ rfl⟩

/-! ### Loads, modes and triggers (R96 to R104) -/

/-- A list or channel load applied while the Scan Unit is quiet (R97, R100). -/
theorem State.applyLoad_scanKept {s t : State} {u : ScanUnit} {l : List (Fin 18)} (hq : s.scan.quiet = true)
    (ht : t = ({ s with scan := u } : State).invalidated l) (hrun : s.scan.Running → u.Running)
    (hlist : s.scan.pendingList = none → u.pendingList = none)
    (hchannel : s.scan.pendingChannel = none → u.pendingChannel = none)
    (hl : ∀ ch, ch ∉ listChannels u.list → ch ∈ l ∨ ch ∉ listChannels s.scan.list) : ScanKept s t := by
  subst ht
  refine ⟨fun h => ?_, fun h => h.invalidated (State.invalidated_channel _ l) (State.invalidated_derived _ l) hl⟩
  obtain ⟨flag, timer, period⟩ := hrun h.running
  obtain ⟨list, channel, loads⟩ := h.settled hq
  exact ⟨flag, timer, period, fun _ => ⟨hlist list, hchannel channel, loads⟩⟩

theorem loadScanListBody_scanKept (s : State) : ScanKept s (loadScanListBody s).state := by
  unfold loadScanListBody
  split
  · exact .refl s
  split
  · exact .refl s
  split
  · exact .refl s
  dsimp only
  split
  · rename_i hq
    refine State.applyLoad_scanKept hq (s.applyList_eq _) (fun h => ⟨h.1, h.2, h.3⟩) (fun _ => rfl) id fun ch hn => ?_
    exact .inl (by simpa using hn)
  · rename_i hq
    exact ⟨fun h => ScanUnit.Running.scanSound_of_busy ⟨h.running.flag, h.running.timer, h.running.period⟩
      (by simpa [ScanUnit.quiet] using hq), id⟩

theorem loadChannelBody_scanKept (s : State) : ScanKept s (loadChannelBody s).state := by
  unfold loadChannelBody
  split
  · exact .refl s
  split
  · exact .refl s
  split
  · exact .refl s
  split
  · exact .refl s
  split
  · exact .refl s
  dsimp only
  split
  · rename_i hq
    exact State.applyLoad_scanKept hq (s.applyChannel_eq _ _) (fun h => ⟨h.1, h.2, h.3⟩) id (fun _ => rfl)
      fun ch hn => .inr hn
  · rename_i hq
    exact ⟨fun h => ScanUnit.Running.scanSound_of_busy ⟨h.running.flag, h.running.timer, h.running.period⟩
      (by simpa [ScanUnit.quiet] using hq), id⟩

theorem clearMinmaxBody_scanKept (s : State) : ScanKept s (clearMinmaxBody s).state := by
  unfold clearMinmaxBody
  split
  · exact .refl s
  split
  · exact .refl s
  rename_i r _
  split
  · have records (q : Fin 22) : (s.modRecord r fun m => { m with minimum := m.latest, maximum := m.latest }).records[q] =
        if r = q then { s.records[r] with minimum := s.records[r].latest, maximum := s.records[r].latest }
        else s.records[q] := getElem_set_fin ..
    refine ⟨id, fun h => ⟨fun q hq => ?_, fun ch hc => ?_⟩⟩
    · rw [records] at hq ⊢
      split
      · exact ⟨le_refl _, le_refl _⟩
      · rename_i hr
        rw [if_neg hr] at hq
        exact h.1 q hq
    · have invalid := h.2 ch hc
      rw [records]
      split
      · rename_i hr
        subst hr
        exact invalid
      · exact invalid
  · exact .refl s

theorem scanNowBody_scanKept (s : State) : ScanKept s (scanNowBody s).state := by
  unfold scanNowBody
  split
  · exact .refl s
  · exact s.trigger_scanKept

theorem writeScanMode_scanKept (v : Byte) (s : State) : ScanKept s (writeScanMode v s) := by
  unfold writeScanMode
  split
  · exact .refl s
  split
  · exact .refl s
  rename_i m _ _
  cases m with
  | timed =>
    exact ⟨fun h => ScanUnit.Running.scanSound_of_busy ⟨h.running.flag, iff_of_true rfl rfl, h.running.period⟩ rfl, id⟩
  | sync =>
    exact ⟨fun h => ScanUnit.Running.scanSound_of_busy
      ⟨h.running.flag, iff_of_false (fun e => by cases e) (fun e => by cases e), h.running.period⟩ rfl, id⟩
  | stopped =>
    have running (h : s.scanSound) :
        ({ s.scan with mode := .stopped, frameTimer := none, pendingTrigger := false } : ScanUnit).Running :=
      ⟨fun _ => rfl, iff_of_false (by simp) (by simp), h.running.period⟩
    unfold State.setMode
    dsimp only
    split
    · rename_i scanning
      exact ⟨fun h => (running h).scanSound_of_busy (ScanUnit.quiet_of_scanning scanning), id⟩
    · exact ⟨fun h => State.becomeQuiet_scanSound (running h), fun h =>
        State.becomeQuiet_recordsSound (s := s.modScan fun u =>
          { u with mode := .stopped, frameTimer := none, pendingTrigger := false }) h⟩

theorem writePeriodHigh_scanKept (v : Byte) (s : State) : ScanKept s (writePeriodHigh v s) := by
  unfold writePeriodHigh
  dsimp only
  split
  · split
    · exact ⟨id, id⟩
    · rename_i hv
      exact ⟨fun h => ⟨h.running.flag, h.running.timer, Nat.le_of_not_lt hv, h.settled⟩, id⟩
  · exact .refl s

theorem syncEdge_scanKept (s : State) : ScanKept s (syncEdge s) := by
  unfold syncEdge
  split
  · exact s.trigger_scanKept
  · exact .refl s

theorem frameTimerExpiry_scanKept (s : State) : ScanKept s (frameTimerExpiry s) := by
  unfold frameTimerExpiry
  split
  · have reloaded : ScanKept s (s.modScan ScanUnit.reloadTimer) := by
      refine ⟨fun h => ⟨h.running.flag, ?_, h.running.period, h.settled⟩, id⟩
      simpa using h.2.1
    exact reloaded.trans (State.trigger_scanKept _)
  · exact .refl s

theorem scanStepSample_scanKept (x : StepCodes) (s : State) : ScanKept s (scanStepSample x s) := by
  unfold scanStepSample
  split <;> exact ⟨id, id⟩

/-- A load applied to an entry moves neither the Scan Unit nor a record, and leaves no load there (R17). -/
theorem State.applyLoad_parts (s : State) (n : Fin 32) (c : EntryConfig) : (s.applyLoad n c).scan = s.scan ∧
    (s.applyLoad n c).records = s.records ∧
    ∀ m : Fin 32, (s.applyLoad n c).entries[m].pendingLoad = if n = m then none else s.entries[m].pendingLoad := by
  have entry (x : EntryState) (m : Fin 32) :
      (s.modEntry n fun _ => { Entry.default with config := c, state := x }).entries[m].pendingLoad =
        if n = m then none else s.entries[m].pendingLoad := by
    rw [State.modEntry_entries, getElem_set_fin]
    split <;> rfl
  rw [State.applyLoad_eq]
  split <;> exact ⟨rfl, rfl, entry _⟩

/-- LOAD ENTRY leaves a load pending only while the Scan Unit is not quiet (R15). -/
theorem loadEntryBody_scanKept (s : State) : ScanKept s (loadEntryBody s).state := by
  unfold loadEntryBody
  split
  · exact .refl s
  split
  · exact .refl s
  rename_i n _
  split
  · exact .refl s
  split
  · exact .refl s
  split
  · exact .refl s
  split
  · exact .refl s
  split
  · exact .refl s
  split
  · obtain ⟨scan, records, loads⟩ := s.applyLoad_parts n s.entryStaging
    exact .of_loads scan records fun m hm => by rw [loads, hm, ite_self]
  · rename_i hq
    have busy : s.scan.quiet = false := by simpa using hq
    exact ⟨fun h => ScanUnit.Running.scanSound_of_busy (s := s.modEntry n _) h.running busy, id⟩

theorem State.tick_scanKept (s : State) : ScanKept s s.tick := by
  refine ⟨fun h => ⟨h.running.flag, ?_, h.running.period, fun hq => ?_⟩, id⟩
  · simpa [State.tick, ScanUnit.tick] using h.2.1
  · obtain ⟨list, channel, loads⟩ := h.settled hq
    refine ⟨list, channel, fun n => ?_⟩
    change (s.entries.map Entry.tick)[n].pendingLoad = none
    rw [Fin.getElem_fin, Vector.getElem_map]
    exact loads n

theorem State.takeFailures_undisturbed (s : State) : Undisturbed s s.takeFailures :=
  s.takeFailures_switching.undisturbed s.takeFailures_configs

theorem timeBaseTick_scanKept (s : State) : ScanKept s (timeBaseTick s) :=
  ((s.receiveWhere_undisturbed _).trans (State.takeFailures_undisturbed _)).toScanStays.scanKept.trans
    (State.tick_scanKept _)

theorem registerWrite_scanKept (v : Byte) (s : State) : ScanKept s (registerWrite v s) := by
  unfold registerWrite
  split
  · have staged := s.writeRegister_staging s.port.pointer.toNat v
    rw [staged]
    exact ⟨id, id⟩
  · exact .refl s

/-! ### Resets (R111, R112, R126, R182, R186) -/

theorem State.assertReset_record (s : State) (r : Fin 22) : s.assertReset.records[r] = MeasRecord.default := by
  change (Vector.replicate 22 MeasRecord.default)[r] = _
  simp

theorem State.assertReset_scanKept (s : State) : ScanKept s s.assertReset := by
  have period : 10 ≤ ScanUnit.default.period.toNat := by decide
  refine ⟨fun _ => ⟨fun _ => rfl, iff_of_false (fun e => by cases e) (fun e => by cases e), period,
    fun _ => ⟨rfl, rfl, fun n => ?_⟩⟩, fun _ => ⟨fun r h => ?_, fun ch _ => ?_⟩⟩
  · rw [s.assertReset_entry]
    rfl
  · rw [s.assertReset_record] at h
    cases h
  · rw [s.assertReset_record]
    rfl

/-- What SOFT RESET leaves of the Scan Unit, the records and the entries (R112, R126, R186). -/
theorem State.softReset_parts (s : State) : s.softReset.scan = s.scan.softReset ∧
    s.softReset.records = s.records.map MeasRecord.invalidated ∧
    s.softReset.entries = Vector.replicate 32 Entry.default := by
  obtain ⟨frame, _, _⟩ := s.dropHolders_frame (List.finRange 32)
  have scan : ((List.finRange 32).foldl State.dropHolder s).scan = s.scan := by rw [frame]
  have records : ((List.finRange 32).foldl State.dropHolder s).records = s.records := by rw [frame]
  unfold State.softReset
  dsimp only
  rw [State.foldl_setIndicator]
  generalize (List.finRange 32).foldl State.dropHolder s = dropped at scan records
  exact ⟨congrArg ScanUnit.softReset scan, congrArg (Vector.map MeasRecord.invalidated) records, rfl⟩

theorem State.softReset_scanKept (s : State) : ScanKept s s.softReset := by
  obtain ⟨scan, records, entries⟩ := s.softReset_parts
  have invalid (r : Fin 22) : s.softReset.records[r].valid = false := by
    rw [records, Fin.getElem_fin, Vector.getElem_map]
    rfl
  refine ⟨fun h => ?_, fun _ => ⟨fun r hr => ?_, fun ch _ => invalid _⟩⟩
  · unfold State.scanSound
    rw [scan]
    refine ⟨fun _ => rfl, iff_of_false (fun e => by cases e) (fun e => by cases e), h.running.period,
      fun _ => ⟨rfl, rfl, fun n => ?_⟩⟩
    rw [entries]
    simp [Entry.default]
  · rw [invalid] at hr
    cases hr

theorem softResetBody_scanKept (s : State) : ScanKept s (softResetBody s).state := by
  unfold softResetBody
  split
  · exact .refl s
  split
  case h_5 => exact s.softReset_scanKept
  all_goals exact .refl s

/-! ### Steps that reach neither (R43 to R93, R127 to R149, R167 to R171) -/

/-- The steps that may move the Scan Unit, a record or a pending load. -/
def reachesScan (c : Instr) : Bool :=
  match c with
  | .scanNow | .loadScanList | .loadChannel | .clearMinmax | .loadEntry | .softReset | .scanModeWrite _
  | .framePeriodHighWrite _ | .registerWrite _ | .powerOnReset | .pinReset | .syncEdge | .frameTimerExpiry
  | .scanStepSample _ _ _ | .scanStepComplete | .timeBaseTick => true
  | _ => false

theorem takeCommand_scanStays {s : State} {body : State → Reply} (h : ScanStays s (body s).state) :
    ScanStays s (takeCommand body s) := by
  unfold takeCommand
  split
  · exact h.trans (.of_entries rfl rfl rfl)
  · exact .refl s

theorem takeWrite_scanStays {s : State} {a : Byte} {f : State → State} (h : ScanStays s (f s)) :
    ScanStays s (takeWrite a f s) := by
  unfold takeWrite
  split
  · exact h.trans (.of_entries rfl rfl rfl)
  · exact .refl s

theorem awake_scanStays {s : State} {f : State → State} (h : ScanStays s (f s)) : ScanStays s (awake f s) := by
  unfold awake
  split
  · exact .refl s
  · exact h

theorem OnlyTransfer.scanStays {s t : State} (h : OnlyTransfer s t) : ScanStays s t := by
  unfold OnlyTransfer at h
  refine .of_entries ?_ ?_ ?_ <;> rw [h]

theorem releaseBody_scanStays (s : State) : ScanStays s (releaseBody s).state := by
  unfold releaseBody
  split
  · exact .refl s
  split
  · exact .refl s
  split
  case h_7 => exact (s.recover_undisturbed _ _).toScanStays
  all_goals exact .refl s

theorem State.clearVolatile_scanStays (s : State) (n : Fin 32) : ScanStays s (s.clearVolatile n) := by
  have unpinned : ScanStays s (s.unpin n) := .of_entries rfl rfl rfl
  rw [State.clearVolatile_eq]
  exact unpinned.trans (State.returned_undisturbed _ n _).toScanStays

theorem clearLockBody_scanStays (service : Bool) (s : State) : ScanStays s (clearLockBody service s).state := by
  unfold clearLockBody
  split
  · exact .refl s
  split
  · exact .refl s
  split
  · exact .refl s
  split
  · split <;> exact .of_entries rfl rfl rfl
  · split
    · exact s.clearVolatile_scanStays _
    · exact .refl s

theorem State.loadIndicator_scanStays (s : State) (i : Fin 8) : ScanStays s (s.loadIndicator i) := by
  have drawn : ScanStays s { s with choice := s.choice + 1 } := .of_entries rfl rfl rfl
  unfold State.loadIndicator
  dsimp only
  split
  · exact (State.setIndicator_switching _ _ _).scanStays
  · exact drawn.trans (State.setIndicator_switching _ _ _).scanStays

theorem loadSwitchBody_scanStays (s : State) : ScanStays s (loadSwitchBody s).state := by
  unfold loadSwitchBody
  split
  · exact .refl s
  split
  · exact .refl s
  rename_i i _
  split
  · exact .refl s
  split
  · exact .refl s
  split
  · exact .refl s
  have loaded : ScanStays s (s.modSwitch i fun w => w.loaded s.switchStaging s.trip.seen) := .of_entries rfl rfl rfl
  exact loaded.trans (State.loadIndicator_scanStays _ i)

theorem restartSwitchBody_scanStays (s : State) : ScanStays s (restartSwitchBody s).state := by
  unfold restartSwitchBody
  split
  · exact .refl s
  split
  · exact .refl s
  split <;> exact .of_entries rfl rfl rfl

theorem loadSequenceBody_scanStays (s : State) : ScanStays s (loadSequenceBody s).state := by
  unfold loadSequenceBody
  split
  · exact .refl s
  split
  · exact .refl s
  split <;> exact .of_entries rfl rfl rfl

theorem powerUpBody_scanStays (s : State) : ScanStays s (powerUpBody s).state := by
  unfold powerUpBody
  split
  · exact .refl s
  split
  case h_5 =>
    split
    · exact .refl s
    · exact (s.beginUp_switching 0).scanStays
  all_goals exact .refl s

theorem powerDownBody_scanStays (s : State) : ScanStays s (powerDownBody s).state := by
  unfold powerDownBody
  split
  · exact .refl s
  split
  case h_4 | h_5 => exact (s.powerDown_switching _).scanStays
  all_goals exact .refl s

theorem dwellExpiry_scanStays (n : Fin 32) (s : State) : ScanStays s (dwellExpiry n s) := by
  unfold dwellExpiry
  split
  · split
    · exact ((s.receiveWhere_undisturbed _).trans (State.qualify_undisturbed _ n _)).toScanStays
    · exact .refl s
  · exact .refl s

theorem recoveryExpiry_scanStays (n : Fin 32) (s : State) : ScanStays s (recoveryExpiry n s) := by
  unfold recoveryExpiry
  split
  · exact (s.recover_undisturbed n _).toScanStays
  · exact .refl s

theorem rampExpiry_scanStays (i : Fin 8) (s : State) : ScanStays s (rampExpiry i s) := by
  unfold rampExpiry
  split
  · have failed : ScanStays s ((s.failSwitch i).draw Config.freeOrder 1).2 := .of_entries rfl rfl rfl
    dsimp only
    split
    · exact failed.trans (State.takeFailures_switching _).scanStays
    · exact failed
  · exact .refl s

theorem programComplete_scanStays (s : State) : ScanStays s (programComplete s) := by
  unfold programComplete
  split
  · exact .refl s
  split <;> exact .of_entries rfl rfl rfl

theorem State.announceClear_scanStays (s : State) (k : Fin 4) (n : Fin 32) (engine : Fin 3) (later : Bool) :
    ScanStays s (s.announceClear k n engine later) := by
  have first : ScanStays s (if engine = 0 then s.lockCleared n else s) := by
    split
    · exact (s.lockCleared_undisturbed n).toScanStays
    · exact .refl s
  unfold State.announceClear
  dsimp only
  generalize (if engine = 0 then s.lockCleared n else s) = s1 at *
  have posted : ScanStays s1 ((if later then s1.send (.store n) else s1.unpin n).postLockCleared k n) := by
    split <;> exact .of_entries rfl rfl rfl
  generalize ((if later then s1.send (.store n) else s1.unpin n).postLockCleared k n) = s2 at *
  refine (first.trans posted).trans ?_
  split
  · exact (s2.lockCleared_undisturbed n).toScanStays
  · split <;> exact .of_entries rfl rfl rfl

theorem eraseComplete_scanStays (s : State) : ScanStays s (eraseComplete s) := by
  unfold eraseComplete
  split
  · rename_i k _
    split
    · rename_i h _ _
      have emptied : ScanStays s (((s.modFault fun f => (f.modMedium k fun d => { d with mark := .blank }).setSlot k
          (.empty false)).leaveMask (.k k) h.mask).draw Config.freeOrder 5).2 := .of_entries rfl rfl rfl
      exact (emptied.trans (State.announceClear_scanStays _ k h.entry _ _)).trans (.of_entries rfl rfl rfl)
    all_goals exact .refl s
  all_goals exact .refl s

theorem State.settleSlot_scanStays (s : State) (k : Fin 4) : ScanStays s (s.settleSlot k) := by
  unfold State.settleSlot
  dsimp only
  split <;> exact .of_entries rfl rfl rfl

theorem restoreSlotSettled_scanStays (s : State) : ScanStays s (restoreSlotSettled s) := by
  unfold restoreSlotSettled
  split
  · exact .refl s
  split
  · exact s.settleSlot_scanStays _
  · exact .refl s

theorem restoreComplete_scanStays (s : State) : ScanStays s (restoreComplete s) := by
  unfold restoreComplete
  split
  · exact .refl s
  rename_i j _
  have settled : ScanStays s (s.settleFrom j) := .foldl State.settleSlot_scanStays _ s
  exact settled.trans (.of_entries rfl rfl rfl)

theorem exec_scanStays {c : Instr} {s t : State} (hc : reachesScan c = false) (h : exec c s = .next t) :
    ScanStays s t := by
  cases c <;> cases hc <;> cases h
  case release => exact takeCommand_scanStays (releaseBody_scanStays s)
  case loadSwitch => exact takeCommand_scanStays (loadSwitchBody_scanStays s)
  case restartSwitch => exact takeCommand_scanStays (restartSwitchBody_scanStays s)
  case loadSequence => exact takeCommand_scanStays (loadSequenceBody_scanStays s)
  case powerUp => exact takeCommand_scanStays (powerUpBody_scanStays s)
  case powerDown => exact takeCommand_scanStays (powerDownBody_scanStays s)
  case dropCaptures =>
    refine takeCommand_scanStays ?_
    unfold dropCapturesBody
    split <;> exact .of_entries rfl rfl rfl
  case clearLock service => exact takeCommand_scanStays (clearLockBody_scanStays service s)
  case popEvent =>
    refine takeCommand_scanStays ?_
    unfold popEventBody
    split <;> exact .of_entries rfl rfl rfl
  case clearLoss => exact takeCommand_scanStays (.of_entries rfl rfl rfl)
  case badCommand code =>
    split
    · exact .refl s
    · exact takeCommand_scanStays (.refl s)
  case alertLevelWrite v =>
    refine takeWrite_scanStays ?_
    unfold writeAlertLevel
    split <;> exact .of_entries rfl rfl rfl
  case framePeriodLowWrite v =>
    refine takeWrite_scanStays ?_
    unfold writePeriodLow
    split <;> exact .of_entries rfl rfl rfl
  case pointerWrite v => exact awake_scanStays (pointerWrite_transfer v s).scanStays
  case addressByte v => exact awake_scanStays (addressByte_transfer v s).scanStays
  case fieldSnapshot service ack => exact awake_scanStays (fieldSnapshot_transfer service ack s).scanStays
  case dataByteServed service ack => exact awake_scanStays (serveByte_transfer service ack s).scanStays
  case transferEnd => exact awake_scanStays (.of_entries rfl rfl rfl)
  case transferTimeout => exact awake_scanStays (transferTimeout_transfer s).scanStays
  case resetEnd a b low =>
    unfold resetEnd
    split <;> exact .of_entries rfl rfl rfl
  case restoreSlotSettled => exact awake_scanStays (restoreSlotSettled_scanStays s)
  case restoreComplete => exact awake_scanStays (restoreComplete_scanStays s)
  case tripFilterAssert low =>
    refine awake_scanStays ?_
    unfold tripAssert
    dsimp only
    split
    · exact .refl s
    · split <;> exact .of_entries rfl rfl rfl
  case tripFilterRelease =>
    refine awake_scanStays ?_
    unfold tripRelease
    split <;> exact .of_entries rfl rfl rfl
  case dwellExpiry n => exact awake_scanStays (dwellExpiry_scanStays n s)
  case recoveryExpiry n => exact awake_scanStays (recoveryExpiry_scanStays n s)
  case rampTimerExpiry i => exact awake_scanStays (rampExpiry_scanStays i s)
  case stepLimitExpiry => exact awake_scanStays (stepLimitExpiry_switching s).scanStays
  case dischargeTimerExpiry => exact awake_scanStays (dischargeExpiry_switching s).scanStays
  case settleTimerExpiry => exact awake_scanStays (settleExpiry_switching s).scanStays
  case programPhaseEnd | erasePhaseEnd | cleanupEraseComplete => exact awake_scanStays (.of_entries rfl rfl rfl)
  case programComplete => exact awake_scanStays (programComplete_scanStays s)
  case eraseComplete => exact awake_scanStays (eraseComplete_scanStays s)

/-! ### Every step -/

theorem exec_reaching_scanKept {c : Instr} {s t : State} (hc : reachesScan c = true) (h : exec c s = .next t) :
    ScanKept s t := by
  cases c <;> cases hc <;> cases h
  case scanNow => exact takeCommand_scanKept (scanNowBody_scanKept s)
  case loadScanList => exact takeCommand_scanKept (loadScanListBody_scanKept s)
  case loadChannel => exact takeCommand_scanKept (loadChannelBody_scanKept s)
  case clearMinmax => exact takeCommand_scanKept (clearMinmaxBody_scanKept s)
  case loadEntry => exact takeCommand_scanKept (loadEntryBody_scanKept s)
  case softReset => exact takeCommand_scanKept (softResetBody_scanKept s)
  case scanModeWrite v => exact takeWrite_scanKept (writeScanMode_scanKept v s)
  case framePeriodHighWrite v => exact takeWrite_scanKept (writePeriodHigh_scanKept v s)
  case registerWrite v => exact awake_scanKept (registerWrite_scanKept v s)
  case powerOnReset | pinReset => exact s.assertReset_scanKept
  case syncEdge => exact awake_scanKept (syncEdge_scanKept s)
  case frameTimerExpiry => exact awake_scanKept (frameTimerExpiry_scanKept s)
  case scanStepSample a b c => exact awake_scanKept (scanStepSample_scanKept _ s)
  case scanStepComplete => exact awake_scanKept (scanStepComplete_scanKept s)
  case timeBaseTick => exact awake_scanKept (timeBaseTick_scanKept s)

theorem exec_scanKept {c : Instr} {s t : State} (h : exec c s = .next t) : ScanKept s t := by
  cases hc : reachesScan c with
  | false => exact (exec_scanStays hc h).scanKept
  | true => exact exec_reaching_scanKept hc h

/-- Settles O60: an empty queue moves nothing, and the command at the front is executed as above. -/
theorem scanAndRecordsStaySound : Obligations.ScanAndRecordsStaySound := by
  intro s t h
  unfold step at h
  split at h
  · cases h
    exact ⟨id, id⟩
  · rename_i c rest _
    have popped : ScanKept s { s with pending := rest } := ⟨id, id⟩
    have kept := popped.trans (exec_scanKept h)
    exact ⟨kept.scan, kept.records⟩

end Sys2Proof.Machine
end

section
/-! SUPPORT. Triggers, the loads of the Scan Unit, and the writes to SCAN_MODE and FRAME_PERIOD (R96 to R104, R173). -/

namespace Sys2Proof.Machine

/-! ### Triggers (R102 to R104) -/

section
variable {s : State}

theorem State.trigger_idle (h : s.scan.scanning = false) : s.trigger = (s.frameStart, 0) := by
  simp [State.trigger, h]

theorem State.trigger_flag (h : s.scan.scanning = true) (hp : s.scan.pendingTrigger = false) :
    s.trigger = ({ s with scan := { s.scan with pendingTrigger := true } }, 1) := by
  simp [State.trigger, h, hp, State.modScan]

/-- A trigger with the flag set is dropped, and its event carries the low 16 bits of the frame number (R104). -/
theorem State.trigger_overrun (h : s.scan.scanning = true) (hp : s.scan.pendingTrigger = true) :
    s.trigger = (s.post .scanOverrun none (s.scan.frameNumber.extractLsb' 0 16) 1, 2) := by
  simp [State.trigger, h, hp, BitVec.setWidth_eq_extractLsb']

theorem scanNowBody_ready (h : s.ready = true) : (scanNowBody s).answer = s.trigger.1.answered .ok s.trigger.2 := by
  simp [scanNowBody, h, Reply.answer]

theorem syncEdge_sync (h : s.scan.mode = .sync) : syncEdge s = s.trigger.1 := if_pos h

theorem frameTimerExpiry_due {left : Int} (hm : s.scan.mode = .timed) (ht : s.scan.frameTimer = some left)
    (hl : left < 10) : frameTimerExpiry s =
      ({ s with scan := { s.scan with frameTimer := some (left + s.scan.period.toNat) } } : State).trigger.1 := by
  have reloaded : s.scan.reloadTimer = { s.scan with frameTimer := some (left + s.scan.period.toNat) } := by
    unfold ScanUnit.reloadTimer
    rw [ht]
    rfl
  unfold frameTimerExpiry
  rw [if_pos ⟨hm, s.scan.timerDue_iff.2 ⟨left, ht, hl⟩⟩, ← reloaded]
  rfl

/-- Outside TIMED mode, with the timer stopped or with ten units left, there is no expiry (R102; logs 8 and 11). -/
theorem frameTimerExpiry_none (h : s.scan.mode ≠ .timed ∨ ∀ left, s.scan.frameTimer = some left → 10 ≤ left) :
    frameTimerExpiry s = s := by
  refine if_neg ?_
  rintro ⟨hm, hd⟩
  obtain ⟨left, ht, hl⟩ := s.scan.timerDue_iff.1 hd
  have := (h.resolve_left (not_not_intro hm)) left ht
  omega

/-- A step that would move nothing moves nothing in reset either (R182). -/
theorem awake_self {f : State → State} (h : f s = s) : awake f s = s := by
  unfold awake
  split
  · rfl
  · exact h

end

/-- Settles O17: each of the three sources, by IDLE, the flag and the overrun; the reload comes before the trigger, which leaves
the timer to run. -/
theorem triggersTaken : Obligations.TriggersTaken := by
  intro s
  refine ⟨fun hc hr => ?_, fun hi hm => ?_, fun hi hm => ?_, fun h => ?_, fun left ht hl => ?_, ?_, fun left hi hm ht hl => ?_⟩
  · have taken : exec .scanNow s = .next (s.trigger.1.answered .ok s.trigger.2) :=
      congrArg Host.Outcome.next ((takeCommand_taken hc scanNowBody).trans (scanNowBody_ready hr))
    rw [taken]
    exact ⟨fun h => by rw [State.trigger_idle h], fun h hp => by rw [State.trigger_flag h hp],
      fun h hp => by rw [State.trigger_overrun h hp]⟩
  · have taken : exec .syncEdge s = .next s.trigger.1 :=
      congrArg Host.Outcome.next ((awake_of hi syncEdge).trans (syncEdge_sync hm))
    rw [taken]
    exact ⟨fun h => by rw [State.trigger_idle h], fun h hp => by rw [State.trigger_flag h hp],
      fun h hp => by rw [State.trigger_overrun h hp]⟩
  · exact congrArg Host.Outcome.next (awake_self (if_neg hm))
  · refine congrArg Host.Outcome.next (awake_self (frameTimerExpiry_none (h.imp_right fun ht left hs => ?_)))
    rw [ht] at hs
    cases hs
  · refine congrArg Host.Outcome.next (awake_self (frameTimerExpiry_none (.inr fun left' ht' => ?_)))
    rw [ht] at ht'
    cases ht'
    exact hl
  · intro left t ht h0 hp hi hm hl h
    have next : t = ({ s with scan := { s.scan with frameTimer := some (left + s.scan.period.toNat) } } : State).trigger.1 := by
      cases h
      exact (awake_of hi frameTimerExpiry).trans (frameTimerExpiry_due hm ht hl)
    have timer : t.scan.frameTimer = some (left + s.scan.period.toNat) := by
      rw [next]
      exact (State.trigger_timerStays _).2.1
    refine congrArg Host.Outcome.next (awake_self (frameTimerExpiry_none (.inr fun left' ht' => ?_)))
    rw [timer] at ht'
    cases ht'
    omega
  · intro u
    have taken : exec .frameTimerExpiry s = .next u.trigger.1 :=
      congrArg Host.Outcome.next ((awake_of hi frameTimerExpiry).trans (frameTimerExpiry_due hm ht hl))
    rw [taken]
    exact ⟨fun h => by rw [State.trigger_idle (s := u) h], fun h hp => by rw [State.trigger_flag (s := u) h hp],
      fun h hp => by rw [State.trigger_overrun (s := u) h hp]⟩

/-! ### LOAD SCAN LIST (R99, R100) -/

theorem badSlot_iff (lo : Nat) (b : Byte) : badSlot lo b = true ↔ b ≠ 0xFF ∧ (b.toNat < lo ∨ lo + 5 < b.toNat) := by
  simp only [badSlot, Bool.and_eq_true, bne_iff_ne, Bool.not_eq_true', Bool.and_eq_false_iff, decide_eq_false_iff_not]
  exact and_congr_right fun _ => by omega

theorem StagedScanStep.channelBytes_isEmpty (u : StagedScanStep) :
    u.channelBytes.isEmpty = true ↔ u.a = 0xFF ∧ u.b = 0xFF ∧ u.c = 0xFF := by
  simp [StagedScanStep.channelBytes, List.filter_eq_nil_iff]

/-- Checks 3 to 7 in the words of R99. -/
theorem ScanStaging.firstFailing_eq (t : ScanStaging) : t.firstFailing =
    if t.length = 0 ∨ 12 < t.length.toNat then some 1
    else if ∃ u ∈ t.listed, u.a = 0xFF ∧ u.b = 0xFF ∧ u.c = 0xFF then some 2
    else if ∃ u ∈ t.listed, (u.a ≠ 0xFF ∧ 5 < u.a.toNat) ∨ (u.b ≠ 0xFF ∧ (u.b.toNat < 6 ∨ 11 < u.b.toNat)) ∨
        (u.c ≠ 0xFF ∧ (u.c.toNat < 12 ∨ 17 < u.c.toNat)) then some 3
    else if ¬(t.listed.flatMap StagedScanStep.channelBytes).Nodup then some 4
    else if ∃ u ∈ t.listed, 15 < u.settle.toNat then some 5
    else none := by
  have length : (t.length = 0 || decide (12 < t.length.toNat)) = true ↔ t.length = 0 ∨ 12 < t.length.toNat := by simp
  have empty : (t.listed.any fun u => u.channelBytes.isEmpty) = true ↔
      ∃ u ∈ t.listed, u.a = 0xFF ∧ u.b = 0xFF ∧ u.c = 0xFF := by
    simp only [List.any_eq_true, StagedScanStep.channelBytes_isEmpty]
  have bad : (t.listed.any fun u => badSlot 0 u.a || badSlot 6 u.b || badSlot 12 u.c) = true ↔
      ∃ u ∈ t.listed, (u.a ≠ 0xFF ∧ 5 < u.a.toNat) ∨ (u.b ≠ 0xFF ∧ (u.b.toNat < 6 ∨ 11 < u.b.toNat)) ∨
        (u.c ≠ 0xFF ∧ (u.c.toNat < 12 ∨ 17 < u.c.toNat)) := by
    simp only [List.any_eq_true, Bool.or_eq_true, badSlot_iff, Nat.not_lt_zero, false_or, zero_add, Nat.reduceAdd, or_assoc]
  have twice : (!decide (t.listed.flatMap StagedScanStep.channelBytes).Nodup) = true ↔
      ¬(t.listed.flatMap StagedScanStep.channelBytes).Nodup := by simp
  have settle : (t.listed.any fun u => decide (15 < u.settle.toNat)) = true ↔ ∃ u ∈ t.listed, 15 < u.settle.toNat := by
    simp only [List.any_eq_true, decide_eq_true_eq]
  unfold ScanStaging.firstFailing
  exact if_congr length rfl (if_congr empty rfl (if_congr bad rfl (if_congr twice rfl (if_congr settle rfl rfl))))

/-- The state after LOAD SCAN LIST with a list that passes: applied while the Scan Unit is quiet, pending otherwise (R100). -/
def State.scanListLoaded (s : State) : State :=
  if s.scan.mode = .stopped ∧ s.scan.scanning = false then
    (s.applyList (s.scan.staging.listed.map StagedScanStep.toStep)).answered .ok 0
  else
    ({ s with scan := { s.scan with pendingList := some (s.scan.staging.listed.map StagedScanStep.toStep) } } : State).answered
      .accepted 0

/-- The result of LOAD SCAN LIST in a ready part (R99, R100). -/
theorem loadScanListBody_of {s : State} (hr : s.ready = true) : (loadScanListBody s).answer =
    if s.scan.pendingList ≠ none then s.answered .loadPending 0
    else s.scan.staging.firstFailing.elim s.scanListLoaded (s.answered .badArgument) := by
  have pending : s.scan.pendingList.isSome = true ↔ s.scan.pendingList ≠ none := Option.isSome_iff_ne_none
  unfold loadScanListBody
  rw [if_neg (by simp [hr]), Reply.answer_ite]
  refine if_congr pending rfl ?_
  cases s.scan.staging.firstFailing with
  | some d => rfl
  | none =>
    dsimp only
    rw [Reply.answer_ite]
    exact if_congr s.scan.quiet_iff rfl rfl

/-! ### LOAD CHANNEL (R96, R97) -/

theorem ChannelKind.ofByte_none {b : Byte} (h : 2 < b.toNat) : ChannelKind.ofByte b = none := by
  unfold ChannelKind.ofByte
  split
  case h_4 => rfl
  all_goals omega

theorem ChannelKind.ofByte_code (k : ChannelKind) : ChannelKind.ofByte k.code = some k := by
  cases k <;> rfl

theorem ChannelKind.ofByte_some {b : Byte} (h : b.toNat ≤ 2) : ∃ k, ChannelKind.ofByte b = some k := by
  obtain h | h | h : b.toNat = 0 ∨ b.toNat = 1 ∨ b.toNat = 2 := by omega
  all_goals simp [ChannelKind.ofByte, h]

/-- The staged record with its kind decoded is the record whose fields are the staged ones (R97). -/
theorem ChannelStaging.toConfig_eq {t : ChannelStaging} {c : ChannelConfig} (hw : c.weight.val = t.weight.toNat)
    (hg : c.gain = t.gain) (ho : c.offset = t.offset) : t.toConfig c.kind = c := by
  obtain ⟨kind, gain, offset, weight⟩ := c
  obtain rfl : gain = t.gain := hg
  obtain rfl : offset = t.offset := ho
  have same : (⟨t.weight.toNat % 8, Nat.mod_lt _ (by decide)⟩ : Fin 8) = weight := by
    apply Fin.ext
    have := weight.isLt
    change t.weight.toNat % 8 = weight.val
    change weight.val = _ at hw
    omega
  exact congrArg (ChannelConfig.mk kind t.gain t.offset) same

section
variable {s : State}

theorem loadChannelBody_none (hr : s.ready = true) (h : 17 < s.port.arg0.toNat) :
    (loadChannelBody s).answer = s.answered .badArgument 0 := by
  unfold loadChannelBody
  rw [if_neg (by simp [hr]), numberBelow_none h]
  rfl

/-- The state after LOAD CHANNEL `ch` with a record that passes: applied while the Scan Unit is quiet, pending otherwise
(R97). -/
def State.channelLoaded (s : State) (ch : Fin 18) (c : ChannelConfig) : State :=
  if s.scan.quiet then (s.applyChannel ch c).answered .ok 0
  else ({ s with scan := { s.scan with pendingChannel := some (ch, c) } } : State).answered .accepted 0

/-- The result of LOAD CHANNEL for a channel in a ready part (R96, R97). -/
theorem loadChannelBody_of {ch : Fin 18} (hr : s.ready = true) (h : s.port.arg0.toNat = ch.val) :
    (loadChannelBody s).answer =
      if s.scan.pendingChannel ≠ none then s.answered .loadPending 0
      else match ChannelKind.ofByte s.scan.channelStaging.kind with
        | none => s.answered .badArgument 1
        | some kind =>
          if 7 < s.scan.channelStaging.weight.toNat then s.answered .badArgument 4
          else s.channelLoaded ch (s.scan.channelStaging.toConfig kind) := by
  have pending : s.scan.pendingChannel.isSome = true ↔ s.scan.pendingChannel ≠ none := Option.isSome_iff_ne_none
  unfold loadChannelBody
  rw [if_neg (by simp [hr]), numberBelow_some h]
  dsimp only
  rw [Reply.answer_ite]
  refine if_congr pending rfl ?_
  cases ChannelKind.ofByte s.scan.channelStaging.kind with
  | none => rfl
  | some kind =>
    dsimp only
    rw [Reply.answer_ite]
    refine if_congr Iff.rfl rfl ?_
    rw [Reply.answer_ite]
    rfl

end

/-- Settles O19: the checks of both commands in their order, then the list or the record applied or pending. -/
theorem scanUnitLoads : Obligations.ScanUnitLoads := by
  refine ⟨fun s hc hr => ?_, fun s hc hr => ?_⟩
  · intro steps channels list
    have taken : exec .loadScanList s = .next (loadScanListBody s).answer :=
      congrArg Host.Outcome.next (takeCommand_taken hc loadScanListBody)
    rw [taken, loadScanListBody_of hr, ScanStaging.firstFailing_eq]
    simp only [elim_ite, Option.elim_some, Option.elim_none]
    rfl
  · have taken : exec .loadChannel s = .next (loadChannelBody s).answer :=
      congrArg Host.Outcome.next (takeCommand_taken hc loadChannelBody)
    rw [taken]
    refine ⟨fun h => by rw [loadChannelBody_none hr h], fun ch h => ?_⟩
    intro staged
    rw [loadChannelBody_of hr h]
    refine ⟨fun hp => by rw [if_pos hp], fun hp => ?_⟩
    rw [if_neg (not_not_intro hp)]
    refine ⟨fun hk => ?_, fun hk hw => ?_, fun c hk hw hg ho => ?_⟩
    · rw [ChannelKind.ofByte_none hk]
    · obtain ⟨kind, hkind⟩ := ChannelKind.ofByte_some hk
      rw [hkind]
      exact congrArg Host.Outcome.next (if_pos hw)
    · have weight : ¬7 < s.scan.channelStaging.weight.toNat := by
        have hlt := c.weight.isLt
        change c.weight.val = s.scan.channelStaging.weight.toNat at hw
        omega
      have kind : ChannelKind.ofByte s.scan.channelStaging.kind = some c.kind := hk ▸ c.kind.ofByte_code
      rw [kind]
      dsimp only
      rw [if_neg weight, ChannelStaging.toConfig_eq hw hg ho]
      exact ⟨fun hq => congrArg Host.Outcome.next (if_pos hq), fun hq => congrArg Host.Outcome.next (if_neg (by simp [hq]))⟩

/-! ### SCAN_MODE and FRAME_PERIOD (R101, R102, R173) -/

section
variable {s : State}

theorem ScanMode.ofByte_none {b : Byte} (h : 2 < b.toNat) : ScanMode.ofByte b = none := by
  unfold ScanMode.ofByte
  split
  case h_4 => rfl
  all_goals omega

theorem ScanMode.ofByte_code (m : ScanMode) : ScanMode.ofByte m.code = some m := by
  cases m <;> rfl

/-- A byte that names no mode, and the mode in force, change nothing (R101, R173). -/
theorem writeScanMode_same {v : Byte} (h : 2 < v.toNat ∨ v = s.scan.mode.code) : writeScanMode v s = s := by
  unfold writeScanMode
  obtain h | rfl := h
  · rw [ScanMode.ofByte_none h]
  · rw [ScanMode.ofByte_code]
    simp

theorem writeScanMode_changes {m : ScanMode} (hr : s.ready = true) (h : s.scan.mode ≠ m) :
    writeScanMode m.code s = s.setMode m := by
  unfold writeScanMode
  rw [ScanMode.ofByte_code]
  simp [hr, h]

/-- STOPPED stops the frame timer and clears the pending trigger; in IDLE the Scan Unit becomes quiet (R101, R108). -/
theorem State.setMode_stopped : s.setMode .stopped =
    if s.scan.scanning = true then
      { s with scan := { s.scan with mode := .stopped, frameTimer := none, pendingTrigger := false } }
    else ({ s with scan := { s.scan with mode := .stopped, frameTimer := none, pendingTrigger := false } } : State).becomeQuiet :=
  rfl

/-- The value that a high byte completes, with the byte held aside or with the low byte of the period in force (R173). -/
theorem State.newPeriod_eq (s : State) (v : Byte) : s.newPeriod v = BitVec.ofNat 16 (256 * v.toNat + match s.port.heldLow with
    | some b => b.toNat
    | none => s.scan.period.toNat % 256) := by
  have append (b : Byte) : v ++ b = BitVec.ofNat 16 (256 * v.toNat + b.toNat) := by
    apply BitVec.eq_of_toNat_eq
    rw [BitVec.toNat_append, ← Nat.shiftLeft_add_eq_or_of_lt b.isLt, Nat.shiftLeft_eq, BitVec.toNat_ofNat]
    omega
  unfold State.newPeriod
  rw [append]
  cases s.port.heldLow with
  | some b => rfl
  | none => simp [byteOf]

end

/-- Settles O20: SCAN_MODE by the value written, FRAME_PERIOD by the value that its high byte completes. -/
theorem scanRegisterWrites : Obligations.ScanRegisterWrites := by
  refine ⟨fun s v hb hr => ?_, fun s v hr => ⟨fun hb => ?_, fun hb => ?_⟩⟩
  · have taken : exec (.scanModeWrite v) s = .next (writeScanMode v s).acknowledged :=
      congrArg Host.Outcome.next (takeWrite_taken hb (writeScanMode v))
    rw [taken]
    refine ⟨fun h => by rw [writeScanMode_same h], ?_, ?_, ?_⟩
    · rintro rfl hm
      exact congrArg (Host.Outcome.next ∘ State.acknowledged) (writeScanMode_changes (m := .timed) hr hm)
    · rintro rfl hm
      exact congrArg (Host.Outcome.next ∘ State.acknowledged) (writeScanMode_changes (m := .sync) hr hm)
    · rintro rfl hm stopped
      have changed : writeScanMode 0 s = s.setMode .stopped := writeScanMode_changes (m := .stopped) hr hm
      rw [changed, State.setMode_stopped]
      exact ⟨fun h => by rw [if_pos h], fun h => by rw [if_neg (by simp [h])]⟩
  · have written : writePeriodLow v s = { s with port := { s.port with heldLow := some v } } := if_pos hr
    exact congrArg Host.Outcome.next ((takeWrite_taken hb (writePeriodLow v)).trans (congrArg State.acknowledged written))
  · intro low value
    have taken : exec (.framePeriodHighWrite v) s = .next (writePeriodHigh v s).acknowledged :=
      congrArg Host.Outcome.next (takeWrite_taken hb (writePeriodHigh v))
    have small : value < 2 ^ 16 := by
      have := v.isLt
      have : low < 256 := by
        change (match s.port.heldLow with | some b => b.toNat | none => s.scan.period.toNat % 256) < 256
        split <;> omega
      change 256 * v.toNat + low < _
      omega
    have period : s.newPeriod v = BitVec.ofNat 16 value := s.newPeriod_eq v
    have written : writePeriodHigh v s =
        if value < 10 then { s with port := { s.port with heldLow := none } }
        else { s with port := { s.port with heldLow := none }, scan := { s.scan with period := BitVec.ofNat 16 value } } := by
      unfold writePeriodHigh
      rw [if_pos hr, period]
      exact if_congr (by rw [BitVec.toNat_ofNat, Nat.mod_eq_of_lt small]) rfl rfl
    rw [taken, written]
    exact ⟨fun h => by rw [if_pos h], fun h => by rw [if_neg (by omega)]⟩

end Sys2Proof.Machine
end

section
/-! SUPPORT. The samples of a step, and the frame end after the last one (R106 to R108, R114 to R116). -/

namespace Sys2Proof.Machine

section
variable {s : State}

theorem exec_scanStepComplete (hi : s.inReset = false) : exec .scanStepComplete s = .next (scanStepComplete s) :=
  congrArg Host.Outcome.next (awake_of hi scanStepComplete)

/-! ### The frame end (R107, R108) -/

theorem State.frameTaken_scan (s : State) (x : StepCodes) : (s.frameTaken x).scan = s.scan :=
  (s.frameTaken_recordsAside x).scan

end

/-- Settles O24: the completion of the last step, by the pending trigger and the mode. -/
theorem frameEndTaken : Obligations.FrameEndTaken := by
  intro s x hi hs hx hlast ended
  rw [exec_scanStepComplete hi, scanStepComplete_last hs hx hlast]
  refine ⟨s.frameTaken_scan x, fun hp => by rw [if_pos hp]; rfl, fun hp => ?_⟩
  rw [if_neg (by simp [hp])]
  exact ⟨fun hm => congrArg Host.Outcome.next (if_pos hm), fun hm => congrArg Host.Outcome.next (if_neg hm)⟩

/-! ### The samples (R106, R114 to R116) -/

/-- The step's update of a channel in one of its three places (R106). -/
theorem mem_stepUpdates {st : ScanStep} {x : StepCodes} {ch : Fin 18} {code : RawCode}
    (h : (st.a = some ch ∧ code = x.a) ∨ (st.b = some ch ∧ code = x.b) ∨ (st.c = some ch ∧ code = x.c)) :
    .update ch code ∈ stepUpdates st x := by
  obtain ⟨a, b, c, settle⟩ := st
  rcases h with ⟨rfl, rfl⟩ | ⟨rfl, rfl⟩ | ⟨rfl, rfl⟩ <;> simp [stepUpdates]

section
variable {s : State} {x : StepCodes} {st : ScanStep}

/-- A completed step leaves each of its channels sampled once, and every other record as it was (R106, R115). -/
theorem State.stepTaken_records (hst : s.scan.list[s.scan.stepIndex]? = some st) (hn : st.channels.Nodup) :
    (∀ ch code, .update ch code ∈ stepUpdates st x → (s.stepTaken x).records[channelSource ch] = s.sampleOf ch code) ∧
    ∀ r, (∀ ch ∈ st.channels, channelSource ch ≠ r) → (s.stepTaken x).records[r] = s.records[r] := by
  have received : Undisturbed s s.receiveEngine := s.receiveWhere_undisturbed _
  have handed : s.stepTaken x = s.receiveEngine.takeAll (stepUpdates st x) := by
    unfold State.stepTaken State.handOver
    rw [received.scan, hst]
  obtain ⟨updated, others⟩ := drain_records (s := s.receiveEngine) (l := stepUpdates st x) le_rfl
    (by rwa [stepUpdates_channels])
  have sample : s.receiveEngine.sampleOf = s.sampleOf := by
    unfold State.sampleOf
    rw [received.scan, received.records]
  rw [sample] at updated
  rw [stepUpdates_channels, received.records] at others
  rw [handed]
  exact ⟨updated, others⟩

theorem ChannelConfig.neg_le_convert (c : ChannelConfig) (code : RawCode) : -32768 ≤ c.convert code := by
  have := c.offset.le_toInt
  unfold ChannelConfig.convert
  omega

/-- A code is at least 0, and so a reading is clipped above alone (R114). -/
theorem State.sampleOf_figures (s : State) (ch : Fin 18) (code : RawCode) :
    let old := s.records[channelSource ch]
    let sum := s.scan.channels[ch].convert code
    let r : Int := min sum 32767
    let new := s.sampleOf ch code
    new.valid = true ∧ new.latest.toInt = r ∧ new.sampleFrame = s.scan.frameNumber ∧ new.clipped = decide (32767 < sum) ∧
    (old.valid = false → new.average.toInt = r ∧ new.minimum.toInt = r ∧ new.maximum.toInt = r ∧ new.count = 1) ∧
    (old.valid = true →
      new.average.toInt = old.average.toInt + (r - old.average.toInt).tdiv (2 ^ s.scan.channels[ch].weight.val) ∧
      new.minimum.toInt = min r old.minimum.toInt ∧ new.maximum.toInt = max r old.maximum.toInt ∧
      new.count.toNat = min (old.count.toNat + 1) 65535) := by
  have low := s.scan.channels[ch].neg_le_convert code
  have clamped : max (-32768) (min (s.scan.channels[ch].convert code) 32767) = min (s.scan.channels[ch].convert code) 32767 := by
    omega
  have clipped : (s.scan.channels[ch].convert code < -32768 ∨ 32767 < s.scan.channels[ch].convert code) ↔
      32767 < s.scan.channels[ch].convert code := by omega
  obtain ⟨valid, _, frame, latest, clip, first, later⟩ := s.records[channelSource ch].sample_figures
    (s.scan.channels[ch].convert code) s.scan.channels[ch].weight.val s.scan.frameNumber
  rw [clamped] at latest first later
  exact ⟨valid, latest, frame, clip.trans (decide_eq_decide.2 clipped), first, later⟩

end

/-- The last step's samples stand at the frame end, and after it where no other frame starts and the Scan Unit does not become
quiet (R107). -/
theorem scanStepComplete_last_channel {s : State} {x : StepCodes} (hs : s.scan.scanning = true) (hx : s.scan.sampled = some x)
    (hlast : s.scan.list.length ≤ s.scan.stepIndex + 1) (hp : s.scan.pendingTrigger = false) (hm : s.scan.mode ≠ .stopped)
    (ch : Fin 18) : (scanStepComplete s).records[channelSource ch] = (s.stepTaken x).records[channelSource ch] := by
  obtain ⟨_, _, channel, _⟩ := (s.stepTaken x).derivedFrameEnd_order
  rw [scanStepComplete_last hs hx hlast, if_neg (by simp [hp])]
  dsimp only
  rw [if_neg hm]
  exact channel ch

/-- Settles O22: the step's updates in any order, from the state that the engine's messages leave. -/
theorem stepSamplesAndUpdates : Obligations.StepSamplesAndUpdates := by
  intro s a b c hi hs
  refine ⟨fun hx => ?_, fun x st hx hst hn => ?_⟩
  · have sampled : scanStepSample { a := a, b := b, c := c } s =
        { s with scan := { s.scan with sampled := some { a := a, b := b, c := c } } } := if_pos (by simp [hs, hx])
    exact congrArg Host.Outcome.next ((awake_of hi _).trans sampled)
  have frame := s.stepTaken_recordsAside x
  obtain ⟨updated, others⟩ := State.stepTaken_records (x := x) hst hn
  refine ⟨fun hnext => ?_, fun hlast => ?_, ⟨frame.scan, frame.port, frame.trip, frame.timestamp, frame.ready,
    frame.inForce, frame.medium, fun n => ⟨frame.entry n, frame.loads n⟩, fun i => frame.switch i⟩, fun ch hch => ?_,
    fun d => ?_, fun ch code hcode => ?_⟩
  · rw [exec_scanStepComplete hi, scanStepComplete_next hs hx hnext]
    rfl
  · exact ⟨_, exec_scanStepComplete hi, scanStepComplete_last_channel hs hx hlast.ge⟩
  · exact others _ fun ch' hch' e => hch (channelSource_inj.1 e ▸ hch')
  · exact others _ fun ch _ => (derivedSource_ne_channelSource d ch).symm
  · intro old k sum r new
    have sample : new = s.sampleOf ch code := updated ch code (mem_stepUpdates hcode)
    rw [sample]
    exact s.sampleOf_figures ch code

end Sys2Proof.Machine
end

section
/-! SUPPORT. The derived channels at a frame end, and the evaluations on them (R107, R122, R123). -/

namespace Sys2Proof.Machine

/-! ### Operands and operations (R121 to R123) -/

section
variable {s : State}

/-- An operand counts where its record is valid and was sampled in the frame that ends (R123). -/
theorem State.operand_eq_some {b : Byte} {x : Int} : s.operand b = some x ↔ ∃ ch : Fin 18, b.toNat = ch.val ∧
    s.records[channelSource ch].valid = true ∧ s.records[channelSource ch].sampleFrame = s.scan.frameNumber ∧
    x = s.records[channelSource ch].latest.toInt := by
  unfold State.operand
  constructor
  · intro h
    cases hb : numberBelow 18 b with
    | none =>
      rw [hb] at h
      cases h
    | some ch =>
      rw [hb] at h
      obtain ⟨⟨valid, frame⟩, value⟩ := Option.ite_none_right_eq_some.1 h
      exact ⟨ch, numberBelow_eq_some.1 hb, valid, frame, (Option.some.inj value).symm⟩
  · rintro ⟨ch, hb, valid, frame, rfl⟩
    rw [numberBelow_some hb]
    exact if_pos ⟨valid, frame⟩

/-- Both operands of a derived channel were sampled in the frame that ends (R123). -/
structure State.Fresh (s : State) (d : Fin 4) (a b : Fin 18) : Prop where
  op : s.derivedInForce[d].op ≠ .none
  first : s.derivedInForce[d].a.toNat = a.val
  second : s.derivedInForce[d].b.toNat = b.val
  firstValid : s.records[channelSource a].valid = true
  firstFrame : s.records[channelSource a].sampleFrame = s.scan.frameNumber
  secondValid : s.records[channelSource b].valid = true
  secondFrame : s.records[channelSource b].sampleFrame = s.scan.frameNumber

theorem State.Fresh.derivedValue {d : Fin 4} {a b : Fin 18} (h : s.Fresh d a b) : s.derivedValue d =
    some (s.derivedInForce[d].op.value s.records[channelSource a].latest.toInt s.records[channelSource b].latest.toInt) := by
  have first := State.operand_eq_some.2 ⟨a, h.first, h.firstValid, h.firstFrame, rfl⟩
  have second := State.operand_eq_some.2 ⟨b, h.second, h.secondValid, h.secondFrame, rfl⟩
  unfold State.derivedValue
  rw [if_neg h.op, first, second]

theorem State.derivedValue_isSome {d : Fin 4} : (s.derivedValue d).isSome = true ↔ ∃ a b, s.Fresh d a b := by
  refine ⟨fun h => ?_, fun ⟨a, b, h⟩ => by rw [h.derivedValue]; rfl⟩
  unfold State.derivedValue at h
  split at h
  · cases h
  rename_i hop
  split at h
  · rename_i x y hx hy
    obtain ⟨a, ha, firstValid, firstFrame, _⟩ := State.operand_eq_some.1 hx
    obtain ⟨b, hb, secondValid, secondFrame, _⟩ := State.operand_eq_some.1 hy
    exact ⟨a, b, hop, ha, hb, firstValid, firstFrame, secondValid, secondFrame⟩
  · cases h
  · cases h

/-- MAX and MIN give the greater and the lesser operand (R122). -/
theorem DerivedOp.value_eq (op : DerivedOp) (x y : Int) : op.value x y = match op with
    | .none => 0
    | .sum => x + y
    | .difference => x - y
    | .product => (x * y).tdiv 1000
    | .maxOf => if x < y then y else x
    | .minOf => if x < y then x else y := by
  cases op with
  | none | sum | difference | product => rfl
  | maxOf =>
    change max x y = if x < y then y else x
    split <;> omega
  | minOf =>
    change min x y = if x < y then x else y
    split <;> omega

/-! ### The record of a derived channel (R123) -/

theorem State.recordDerived_none {d : Fin 4} (h : s.derivedInForce[d].op = .none) :
    s.recordDerived d = s.records[derivedSource d] := if_pos h

theorem State.recordDerived_stale {d : Fin 4} (h : s.derivedInForce[d].op ≠ .none) (hf : ∀ a b, ¬s.Fresh d a b) :
    s.recordDerived d = { s.records[derivedSource d] with stale := true } := by
  have uncomputed : s.derivedValue d = none := by
    rw [← Option.not_isSome_iff_eq_none, State.derivedValue_isSome]
    exact fun ⟨a, b, fresh⟩ => hf a b fresh
  unfold State.recordDerived
  rw [if_neg h, uncomputed]
  rfl

theorem State.Fresh.recordDerived {d : Fin 4} {a b : Fin 18} (h : s.Fresh d a b) : s.recordDerived d =
    s.records[derivedSource d].sample
      (s.derivedInForce[d].op.value s.records[channelSource a].latest.toInt s.records[channelSource b].latest.toInt)
      s.derivedInForce[d].weight.toNat s.scan.frameNumber := by
  unfold State.recordDerived
  rw [if_neg h.op, h.derivedValue]
  rfl

/-! ### The evaluations (R23, R123; log 3) -/

/-- An entry takes an evaluation of a derived channel that is computed where it names its source and is not in OFF (R123). -/
def State.Evaluates (s : State) (n : Fin 32) (d : Fin 4) : Prop :=
  (∃ a b, s.Fresh d a b) ∧ s.entries[n].config.source.toNat = 18 + d.val ∧ s.entries[n].state ≠ .off

theorem State.mem_watchers_derived {n : Fin 32} {d : Fin 4} : n ∈ s.watchers (derivedSource d) ↔
    s.entries[n].config.source.toNat = 18 + d.val ∧ s.entries[n].state ≠ .off := by
  rw [State.watchers, List.mem_filter, Bool.and_eq_true, beq_iff_eq, EntryConfig.sourceOf, numberBelow_eq_some, bne_iff_ne]
  exact and_iff_right (List.mem_finRange n)

theorem State.mem_derivedEvaluations {n : Fin 32} {d e : Fin 4} :
    (n, d) ∈ s.derivedEvaluations e ↔ d = e ∧ s.Evaluates n d := by
  unfold State.derivedEvaluations State.Evaluates
  rw [← State.derivedValue_isSome, ← State.mem_watchers_derived]
  split
  · rename_i computed
    simp only [List.mem_map, Prod.mk.injEq]
    constructor
    · rintro ⟨m, hm, rfl, rfl⟩
      exact ⟨rfl, computed, hm⟩
    · rintro ⟨rfl, _, hn⟩
      exact ⟨n, hn, rfl, rfl⟩
  · rename_i uncomputed
    refine ⟨fun h => absurd h List.not_mem_nil, ?_⟩
    rintro ⟨rfl, computed, _⟩
    exact absurd computed uncomputed

theorem State.nodup_derivedEvaluations (s : State) (d : Fin 4) : (s.derivedEvaluations d).Nodup := by
  unfold State.derivedEvaluations
  split
  · exact ((List.nodup_finRange 32).filter _).map fun _ _ h => (Prod.mk.inj h).1
  · exact .nil

/-- The evaluations of a frame end are those of the entries on computed derived channels, each once (R123). -/
theorem State.mem_allEvaluations {n : Fin 32} {d : Fin 4} :
    (n, d) ∈ (List.finRange 4).flatMap s.derivedEvaluations ↔ s.Evaluates n d := by
  simp only [List.mem_flatMap, List.mem_finRange, true_and, State.mem_derivedEvaluations, exists_eq_left']

theorem State.nodup_allEvaluations (s : State) : ((List.finRange 4).flatMap s.derivedEvaluations).Nodup := by
  refine List.nodup_flatMap.2 ⟨fun d _ => s.nodup_derivedEvaluations d, (List.nodup_finRange 4).imp fun {d e} hde => ?_⟩
  rintro ⟨n, d'⟩ hd he
  obtain ⟨rfl, _⟩ := State.mem_derivedEvaluations.1 hd
  exact hde (State.mem_derivedEvaluations.1 he).1

/-- The evaluations of a frame end, each taken once and whole, in an order that is free (R123; log 3). -/
theorem State.derivedFrameEnd_evaluations (s : State) : ∃ order : List (Fin 32 × Fin 4), order.Nodup ∧
    (∀ n d, (n, d) ∈ order ↔ s.Evaluates n d) ∧
    s.derivedFrameEnd = (order.foldl State.evaluateDerived { s with records := s.derivedFrameEnd.records }).withChoice
      (s.choice + (order.length - 1)) := by
  obtain ⟨order, perm, _, _, ended⟩ := s.derivedFrameEnd_order
  exact ⟨order, perm.nodup_iff.2 s.nodup_allEvaluations, fun n d => perm.mem_iff.trans State.mem_allEvaluations, ended⟩

theorem State.derivedFrameEnd_none (h : ∀ n d, ¬s.Evaluates n d) :
    s.derivedFrameEnd = { s with records := s.derivedFrameEnd.records } := by
  obtain ⟨order, _, mem, ended⟩ := s.derivedFrameEnd_evaluations
  obtain rfl : order = [] := List.eq_nil_iff_forall_not_mem.2 fun ⟨n, d⟩ hn => h n d ((mem n d).1 hn)
  exact ended

theorem State.derivedFrameEnd_one {n : Fin 32} {d : Fin 4} (h : ∀ m e, s.Evaluates m e ↔ m = n ∧ e = d) :
    s.derivedFrameEnd = ({ s with records := s.derivedFrameEnd.records } : State).evaluate (derivedSource d) n := by
  obtain ⟨order, nodup, mem, ended⟩ := s.derivedFrameEnd_evaluations
  have single : order.Perm [(n, d)] := (List.perm_ext_iff_of_nodup nodup (List.nodup_singleton _)).2 fun ⟨m, e⟩ => by
    rw [mem, h, List.mem_singleton, Prod.mk.injEq]
  rw [List.perm_singleton.1 single] at ended
  have choice := ({ s with records := s.derivedFrameEnd.records } : State).evaluate_choice (derivedSource d) n
  have unchosen : ∀ t : State, t.choice = s.choice → t.withChoice (s.choice + 0) = t := fun t ht => by
    rw [← ht]
    rfl
  exact ended.trans (unchosen _ choice)

end

/-- Settles O25: the record of each derived channel by its operation and its operands, and the evaluations in their order. -/
theorem derivedChannelAtFrameEnd : Obligations.DerivedChannelAtFrameEnd := by
  refine ⟨fun s x hi hs hx hlast hp hm => ?_, fun s => ?_⟩
  · rw [exec_scanStepComplete hi, scanStepComplete_last hs hx hlast.ge, if_neg (by simp [hp])]
    exact congrArg Host.Outcome.next (if_neg hm)
  intro t fresh evaluated
  have fresh_iff (d : Fin 4) (a b : Fin 18) : fresh d a b ↔ s.Fresh d a b :=
    ⟨fun ⟨op, ha, hb, av, af, bv, bf⟩ => ⟨op, ha, hb, av, af, bv, bf⟩,
      fun ⟨op, ha, hb, av, af, bv, bf⟩ => ⟨op, ha, hb, av, af, bv, bf⟩⟩
  have evaluated_iff (n : Fin 32) (d : Fin 4) : evaluated n d ↔ s.Evaluates n d := by
    simp only [evaluated, fresh_iff]
    rfl
  obtain ⟨_, _, channel, derived, _⟩ := s.derivedFrameEnd_order
  have aside := s.derivedFrameEnd_recordsAside
  refine ⟨channel, ⟨aside.inForce, aside.entry⟩, fun d => ⟨fun h => ?_, fun h hf => ?_, fun a b hf => ?_⟩,
    fun h => ?_, fun n d h => ?_, ?_⟩
  · exact (derived d).trans (State.recordDerived_none h)
  · exact (derived d).trans (State.recordDerived_stale h fun a b hf' => hf a b ((fresh_iff d a b).2 hf'))
  · intro x y value r
    have computed := (derived d).trans ((fresh_iff d a b).1 hf).recordDerived
    rw [DerivedOp.value_eq] at computed
    rw [computed]
    exact MeasRecord.sample_figures _ value _ _
  · exact State.derivedFrameEnd_none fun n d hn => h n d ((evaluated_iff n d).2 hn)
  · exact State.derivedFrameEnd_one fun m e => (evaluated_iff m e).symm.trans (h m e)
  · obtain ⟨order, nodup, mem, ended⟩ := s.derivedFrameEnd_evaluations
    exact ⟨order, nodup, fun n d => (mem n d).trans (evaluated_iff n d).symm, ended⟩

end Sys2Proof.Machine
end

section
/-! SUPPORT. CLEAR MINMAX: its checks in order, and the record it writes (R119). -/

namespace Sys2Proof.Machine

section
variable {s : State}

theorem clearMinmaxBody_notReady (hr : s.ready = false) : clearMinmaxBody s = s.refuse .notReady :=
  if_pos (by simp [hr])

theorem clearMinmaxBody_noSource (hr : s.ready = true) (h : 21 < s.port.arg0.toNat) :
    clearMinmaxBody s = s.refuse .badArgument := by
  unfold clearMinmaxBody
  rw [if_neg (by simp [hr]), numberBelow_none h]

/-- CLEAR MINMAX of a source in a ready part: a valid record's minimum and maximum take the latest reading, and an invalid
record stands (R119). -/
theorem clearMinmaxBody_of {r : Fin 22} (hr : s.ready = true) (h : s.port.arg0.toNat = r.val) :
    clearMinmaxBody s =
      if s.records[r].valid = true then
        ⟨s.modRecord r fun m => { m with minimum := m.latest, maximum := m.latest }, .ok, 0⟩
      else ⟨s, .ok, 0⟩ := by
  unfold clearMinmaxBody
  rw [if_neg (by simp [hr]), numberBelow_some h]

end

/-- Settles O21: the checks in their order, then the record as it is valid or not. -/
theorem clearMinmaxResults : Obligations.ClearMinmaxResults := by
  intro s hs
  have taken : exec .clearMinmax s = .next (clearMinmaxBody s).answer :=
    congrArg Host.Outcome.next (takeCommand_taken hs clearMinmaxBody)
  rw [taken]
  refine ⟨fun hr => ?notReady, fun hr ha => ?noSource, fun r hr h => ⟨fun hv => ?valid, fun hv => ?invalid⟩⟩
  case notReady =>
    rw [clearMinmaxBody_notReady hr]
    rfl
  case noSource =>
    rw [clearMinmaxBody_noSource hr ha]
    rfl
  case valid =>
    rw [clearMinmaxBody_of hr h, if_pos hv]
    rfl
  case invalid =>
    rw [clearMinmaxBody_of hr h, if_neg (ne_true_of_eq_false hv)]
    rfl

end Sys2Proof.Machine
end

section
/-! SUPPORT. Every step keeps the Event Queue and the Capture Store sound (R127, R130, R153, R163). -/

namespace Sys2Proof.Machine

/-! ### What a step keeps -/

/-- The passage keeps the queue sound and the Capture Store sound (R127, R130, R153, R163). -/
structure StoresKept (s t : State) : Prop where
  queue : s.queue.sound → t.queue.sound
  captures : s.captures.sound → t.captures.sound

theorem StoresKept.trans {s t u : State} (a : StoresKept s t) (b : StoresKept t u) : StoresKept s u :=
  ⟨b.queue ∘ a.queue, b.captures ∘ a.captures⟩

theorem Keeps.storesKept {s t : State} (h : Keeps s t) : StoresKept s t := ⟨h.queue, h.captures⟩

/-- A passage that moves neither keeps both. -/
theorem StoresKept.unmoved {s t : State} (hq : t.queue = s.queue) (hc : t.captures = s.captures) : StoresKept s t := by
  refine ⟨fun h => ?_, fun h => ?_⟩
  · rwa [hq]
  · rwa [hc]

theorem StoresKept.refl (s : State) : StoresKept s s := .unmoved rfl rfl

/-- Emptied, both are sound, whatever they held (R166, R182, R186). -/
theorem StoresKept.emptied {s t : State} (hq : t.queue = EventQueue.default) (hc : t.captures = CaptureStore.default) :
    StoresKept s t := by
  refine ⟨fun _ => ?_, fun _ => ?_⟩
  · rw [hq]
    exact EventQueue.default_sound
  · rw [hc]
    exact CaptureStore.default_sound

/-- A passage in which one event arrives at the queue, and the Capture Store does not move (R155). -/
theorem StoresKept.arrived {s t : State} {r : EventRecord} (hq : t.queue = s.queue.arrive r)
    (hc : t.captures = s.captures) : StoresKept s t := by
  refine ⟨fun h => ?_, fun h => ?_⟩
  · rw [hq]
    exact h.arrive r
  · rwa [hc]

theorem StoresKept.foldl {α : Type} {f : State → α → State} (h : ∀ s x, StoresKept s (f s x)) (l : List α)
    (s : State) : StoresKept s (l.foldl f s) := by
  induction l generalizing s with
  | nil => exact .refl s
  | cons a l ih => exact (h s a).trans (ih _)

theorem takeCommand_storesKept {s : State} {body : State → Reply} (h : StoresKept s (body s).state) :
    StoresKept s (takeCommand body s) := by
  unfold takeCommand
  split
  · exact h.trans (.unmoved rfl rfl)
  · exact .refl s

theorem awake_storesKept {s : State} {f : State → State} (h : StoresKept s (f s)) : StoresKept s (awake f s) := by
  unfold awake
  split
  · exact .refl s
  · exact h

/-! ### LOAD SWITCH, LOAD SEQUENCE and SOFT RESET (R53, R74, R186) -/

theorem loadSwitchBody_storesKept (s : State) : StoresKept s (loadSwitchBody s).state := by
  unfold loadSwitchBody
  split
  · exact .refl s
  split
  · exact .refl s
  rename_i i _
  split
  · exact .refl s
  split
  · exact .refl s
  split
  · exact .refl s
  have loaded : StoresKept s (s.modSwitch i fun w => w.loaded s.switchStaging s.trip.seen) := .unmoved rfl rfl
  exact loaded.trans (State.loadIndicator_keeps _ i).storesKept

theorem loadSequenceBody_storesKept (s : State) : StoresKept s (loadSequenceBody s).state := by
  unfold loadSequenceBody
  split
  · exact .refl s
  split
  · exact .refl s
  split <;> exact .unmoved rfl rfl

theorem softResetBody_storesKept (s : State) : StoresKept s (softResetBody s).state := by
  unfold softResetBody
  split
  · exact .refl s
  split
  case h_5 => exact .emptied rfl rfl
  all_goals exact .refl s

/-! ### A stored lock comes and goes (R141, R142) -/

theorem programComplete_storesKept (s : State) : StoresKept s (programComplete s) := by
  unfold programComplete
  split
  · exact .refl s
  split
  · exact .arrived rfl rfl
  all_goals exact .refl s

theorem eraseComplete_storesKept (s : State) : StoresKept s (eraseComplete s) := by
  unfold eraseComplete
  split
  · rename_i k _
    split
    · rename_i h _ _
      have emptied : StoresKept s (((s.modFault fun f => (f.modMedium k fun d => { d with mark := .blank }).setSlot k
          (.empty false)).leaveMask (.k k) h.mask).draw Config.freeOrder 5).2 := .unmoved rfl rfl
      exact (emptied.trans (State.announceClear_keeps _ k h.entry _ _).storesKept).trans (.unmoved rfl rfl)
    all_goals exact .refl s
  all_goals exact .refl s

/-! ### The end of reset and the restore (R148, R182, R183) -/

theorem resetEnd_storesKept (addr1 addr0 tripLow : Bool) (s : State) : StoresKept s (resetEnd addr1 addr0 tripLow s) := by
  unfold resetEnd
  split <;> exact .unmoved rfl rfl

/-- A slot that the restore settles may post one event, and makes no capture record (R148). -/
theorem State.settleSlot_storesKept (s : State) (k : Fin 4) : StoresKept s (s.settleSlot k) := by
  unfold State.settleSlot
  dsimp only
  split
  case h_1 | h_2 => exact .arrived rfl rfl
  all_goals exact .unmoved rfl rfl

theorem restoreSlotSettled_storesKept (s : State) : StoresKept s (restoreSlotSettled s) := by
  unfold restoreSlotSettled
  split
  · exact .refl s
  split
  · exact s.settleSlot_storesKept _
  · exact .refl s

/-- The completion settles what is left, and then posts DEVICE_READY (R183). -/
theorem restoreComplete_storesKept (s : State) : StoresKept s (restoreComplete s) := by
  unfold restoreComplete
  split
  · exact .refl s
  rename_i j _
  have settled : StoresKept s (s.settleFrom j) := .foldl State.settleSlot_storesKept _ s
  exact settled.trans (.arrived rfl rfl)

/-! ### Every step -/

/-- The steps that do more than messages between blocks do. -/
theorem exec_deep_storesKept {c : Instr} {s t : State} (hd : isDeep c = true) (h : exec c s = .next t) :
    StoresKept s t := by
  cases c <;> cases hd <;> cases h
  case loadSwitch => exact takeCommand_storesKept (loadSwitchBody_storesKept s)
  case loadSequence => exact takeCommand_storesKept (loadSequenceBody_storesKept s)
  case softReset => exact takeCommand_storesKept (softResetBody_storesKept s)
  case powerOnReset | pinReset => exact .emptied rfl rfl
  case resetEnd a b low => exact resetEnd_storesKept a b low s
  case restoreSlotSettled => exact awake_storesKept (restoreSlotSettled_storesKept s)
  case restoreComplete => exact awake_storesKept (restoreComplete_storesKept s)
  case programComplete => exact awake_storesKept (programComplete_storesKept s)
  case eraseComplete => exact awake_storesKept (eraseComplete_storesKept s)

theorem exec_storesKept {c : Instr} {s t : State} (h : exec c s = .next t) : StoresKept s t := by
  cases hd : isDeep c with
  | false => exact (exec_keeps hd h).storesKept
  | true => exact exec_deep_storesKept hd h

/-- Settles O58: an empty queue of commands moves nothing, and the command at the front is executed as above. -/
theorem queueAndCapturesStaySound : Obligations.QueueAndCapturesStaySound := by
  intro s t h
  unfold step at h
  split at h
  · cases h
    exact ⟨id, id⟩
  · rename_i c rest _
    have popped : StoresKept s { s with pending := rest } := .unmoved rfl rfl
    have kept := popped.trans (exec_storesKept h)
    exact ⟨kept.queue, kept.captures⟩

end Sys2Proof.Machine
end

section
/-! SUPPORT. The record that a qualification makes, and DROP CAPTURES (R128 to R131, R134). -/

namespace Sys2Proof.Machine

/-! ### A record made (R128 to R131) -/

/-- The record made, by the counter and the pins of the store before it: room takes no pinned record (R128 to R131). -/
theorem CaptureStore.make_eq {c : CaptureStore} (h : c.sound) (entry : Fin 32) (lock : Bool) (now : Word)
    (d : DwellRecord) (l : List Companion) :
    (c.make entry lock now d l).2 =
      { id := c.assignId, entry := entry, timestamp := now, frame := d.frame, trigger := d.value,
        threshold := d.threshold, companions := l, pinned := lock && decide (c.pinnedCount < 4) } := by
  obtain ⟨_, _, pins⟩ := CaptureStore.makeRoom_spec h
  unfold CaptureStore.make
  dsimp only
  rw [pins]

/-- Settles O41: the records kept are those that making room leaves (R130), and the id is the one the search finds (R129). -/
theorem captureMade : Obligations.CaptureMade := by
  intro c entry lock now d companions h
  obtain ⟨tries, bound, found, fresh, passed⟩ := CaptureStore.assignId_spec h.1
  refine ⟨c.makeRoom.records, rfl, ?record, fresh, ⟨tries, bound, found, passed⟩, fun hl => ?room, fun hf => ?full⟩
  case record =>
    rw [CaptureStore.make_eq h, CaptureStore.pinnedCount, List.countP_eq_length_filter]
  case room => rw [CaptureStore.makeRoom_room hl]
  case full =>
    obtain ⟨newer, r, older, parts, unpinned, pinned, kept⟩ := CaptureStore.makeRoom_full h hf
    exact ⟨newer, older, r, parts, unpinned, pinned, kept⟩

/-! ### DROP CAPTURES (R134) -/

theorem dropCapturesBody_notReady {s : State} (hr : s.ready = false) : dropCapturesBody s = s.refuse .notReady :=
  if_pos (by simp [hr])

/-- The pinned records stay, and as many are removed as are not pinned (R134). -/
theorem dropCapturesBody_ready {s : State} (hr : s.ready = true) :
    dropCapturesBody s =
      ⟨{ s with captures := { s.captures with records := s.captures.records.filter fun r => r.pinned } }, .ok,
        BitVec.ofNat 8 (s.captures.records.filter fun r => !r.pinned).length⟩ := by
  have removed : s.captures.records.length - (s.captures.records.filter CaptureRecord.pinned).length =
      (s.captures.records.filter fun r => !r.pinned).length := by
    have parts := List.length_eq_length_filter_add (l := s.captures.records) CaptureRecord.pinned
    omega
  unfold dropCapturesBody
  rw [if_neg (by simp [hr])]
  dsimp only
  rw [removed]

/-- Settles O42: the refusal of a part not ready, and otherwise the records as the pins part them. -/
theorem dropCapturesResults : Obligations.DropCapturesResults := by
  intro s hs
  have taken : exec .dropCaptures s = .next (dropCapturesBody s).answer :=
    congrArg Host.Outcome.next (takeCommand_taken hs dropCapturesBody)
  rw [taken]
  refine ⟨fun hr => ?notReady, fun hr => ?ready⟩
  case notReady =>
    rw [dropCapturesBody_notReady hr]
    rfl
  case ready =>
    rw [dropCapturesBody_ready hr]
    rfl

end Sys2Proof.Machine
end

section
/-! SUPPORT. What a reset leaves on the medium, and the restore that settles the slots from it (R147, R148, R183). -/

namespace Sys2Proof.Machine

/-! ### A reset with an operation in flight (R147) -/

/-- A clear phase that a reset stops leaves its area blank or in part. -/
theorem Area.cleared_cases {α : Type} (x : Area α) (part : Bool) :
    x.cleared part = .blank ∨ x.cleared part = .partly := by
  cases x <;> cases part <;> simp [Area.cleared]

/-- What a mark phase that a reset stops leaves of the mark (R147; log 5). -/
theorem SlotMedium.interrupted_mark (d : SlotMedium) (outcome : Nat) :
    d.interrupted .mark outcome = { d with mark := .partly } ∨ d.interrupted .mark outcome = d := by
  unfold SlotMedium.interrupted
  exact ite_eq_or_eq ..

/-- A serial phase that a reset stops leaves the new word, a failing one, or the word as it was (R147; log 5). -/
theorem SerialWord.interrupted_cases (w : SerialWord) (outcome : Nat) :
    w.interrupted outcome = .value w.next ∨ w.interrupted outcome = .failing ∨ w.interrupted outcome = w := by
  unfold SerialWord.interrupted
  split
  · exact .inl rfl
  · exact .inr (ite_eq_or_eq ..)

/-- A program in its serial phase is the item in flight (R140, R141). -/
theorem FaultMemory.phaseOf_serial_iff {f : FaultMemory} {i : WorkItem} {rest : List WorkItem} {p : OpPhase}
    (hw : f.work = i :: rest) (hp : f.phase = some p) : (∃ k, f.phaseOf k = some .serial) ↔ p = .serial := by
  refine ⟨fun ⟨k, hk⟩ => ?_, fun h => ⟨i.slot, by rw [phaseOf_head hw, hp, h]⟩⟩
  by_cases ho : k = i.slot
  · rw [ho, phaseOf_head hw, hp] at hk
    exact Option.some.inj hk
  · rw [phaseOf_other hw ho] at hk
    cases hk

/-- The serial word is at stake exactly while some slot's program is in its serial phase (R141, R147). -/
theorem FaultMemory.interruptedSerial_eq (f : FaultMemory) (outcome : Nat) :
    f.interruptedSerial outcome =
      if ∃ k, f.phaseOf k = some .serial then f.serialWord.interrupted outcome else f.serialWord := by
  unfold FaultMemory.interruptedSerial
  split
  next hw => rw [if_neg (by simp [FaultMemory.phaseOf, hw])]
  next hp => rw [if_neg (by simp [phaseOf_idle hp])]
  next hw hp => simp only [FaultMemory.phaseOf_serial_iff hw hp]

/-- Settles O5: the slot in flight is left as its phase says, and the serial word as a serial phase does. -/
theorem interruptedWritesOnTheMedium : Obligations.InterruptedWritesOnTheMedium := by
  intro s
  refine ⟨s.assertReset, rfl, fun k => ?_, fun idle => ?_, fun serial => ?_⟩
  · obtain ⟨outcome, left⟩ := s.assertReset_medium k
    rw [left]
    refine ⟨fun h => ?_, fun h => ?_, fun h => ?_, fun h => ?_, fun h => ?_, fun h => ?_⟩
    · rcases h with h | h
      · rw [h]
      · rw [h]
        rfl
    · rw [h]
      rfl
    · rw [h]
      rfl
    · rw [h]
      exact s.fault.medium[k].interrupted_mark outcome
    · rw [h]
      exact ⟨Area.cleared_cases .., Area.cleared_cases .., rfl⟩
    · rw [h]
      rfl
  · exact (s.fault.interruptedSerial_eq _).trans (if_neg idle)
  · have left : s.assertReset.fault.serialWord = s.fault.serialWord.interrupted _ :=
      (s.fault.interruptedSerial_eq _).trans (if_pos serial)
    rw [left]
    exact s.fault.serialWord.interrupted_cases _

/-! ### The restore settles a slot (R148) -/

theorem restoreSlotSettled_at {s : State} {k : Fin 4} (hs : s.inReset = false) (hk : s.fault.restore = some k.val) :
    exec .restoreSlotSettled s = .next (s.settleSlot k) := by
  refine congrArg Host.Outcome.next ((awake_of hs _).trans ?_)
  unfold restoreSlotSettled
  rw [hk]
  exact dif_pos k.isLt

section settleSlot
variable {s : State} {k : Fin 4}

/-- A slot that the restore finds with something but no passing header is EMPTY, to be cleaned up (R148). -/
theorem State.settleSlot_discarded (h : s.fault.medium[k].restored = .empty true) : s.settleSlot k =
    ({ s with
      fault :=
        { s.fault with
          slots := s.fault.slots.set k (.empty true)
          restore := some (k.val + 1)
          work := s.fault.work ++ [{ kind := .cleanup, slot := k }] } } : State).post .recordDiscarded (some k.val) 0
      2 := by
  unfold State.settleSlot
  rw [h]
  rfl

/-- A slot whose header passes is VALID, and its K-holder joins (R148). -/
theorem State.settleSlot_valid {h : LockHeader} {b : Option LockBody} (hd : s.fault.medium[k].restored = .valid h b) :
    s.settleSlot k =
    ({ s with
      fault := { s.fault with slots := s.fault.slots.set k (.valid h b), restore := some (k.val + 1) }
      switches := Vector.ofFn fun i =>
        if h.mask.getLsbD i.val then s.switches[i].join (.k k) else s.switches[i] } : State).post .lockRestored
      (some k.val) (restoredDetail h.entry b) 3 := by
  unfold State.settleSlot
  rw [hd]
  rfl

/-- A blank slot is EMPTY, with no event (R148). -/
theorem State.settleSlot_blank (h : s.fault.medium[k].restored = .empty false) : s.settleSlot k =
    { s with fault := { s.fault with slots := s.fault.slots.set k (.empty false), restore := some (k.val + 1) } } := by
  unfold State.settleSlot
  rw [h]
  rfl

end settleSlot

section restored
variable {d : SlotMedium}

theorem SlotMedium.restored_marked (h : d.mark ≠ .blank) : d.restored = .empty true := by
  unfold SlotMedium.restored
  cases hm : d.mark with
  | blank => exact absurd hm h
  | partly | whole => rfl

theorem SlotMedium.restored_failing (hm : d.mark = .blank) (hh : ∀ h, d.header ≠ .whole h)
    (hb : ¬(d.header = .blank ∧ d.body = .blank)) : d.restored = .empty true := by
  unfold SlotMedium.restored
  rw [hm]
  cases hd : d.header with
  | whole h => exact absurd hd (hh h)
  | partly => rfl
  | blank =>
    cases hx : d.body with
    | blank => exact absurd ⟨hd, hx⟩ hb
    | partly | whole => rfl

theorem SlotMedium.restored_whole {h : LockHeader} {b : LockBody} (hm : d.mark = .blank) (hh : d.header = .whole h)
    (hb : d.body = .whole b) : d.restored = .valid h (some b) := by
  unfold SlotMedium.restored
  rw [hm, hh, hb]

theorem SlotMedium.restored_bodiless {h : LockHeader} (hm : d.mark = .blank) (hh : d.header = .whole h)
    (hb : ∀ b, d.body ≠ .whole b) : d.restored = .valid h none := by
  unfold SlotMedium.restored
  rw [hm, hh]
  cases hx : d.body with
  | whole b => exact absurd hx (hb b)
  | blank | partly => rfl

theorem SlotMedium.restored_of_blank (hm : d.mark = .blank) (hh : d.header = .blank) (hb : d.body = .blank) :
    d.restored = .empty false := by
  unfold SlotMedium.restored
  rw [hm, hh, hb]

end restored

/-- The detail of LOCK_RESTORED as a number (R175). -/
theorem restoredDetail_eq (e : Fin 32) (b : Option LockBody) :
    restoredDetail e b = BitVec.ofNat 16 ((if b.isNone then 256 else 0) + e.val) := by
  unfold restoredDetail
  generalize b.isNone = absent
  revert e absent
  decide

/-- Settles O7: the medium of the slot decides its view, and the view what settling it does. -/
theorem restoreSettlesASlot : Obligations.RestoreSettlesASlot := by
  intro s k hs hk settled discarded joined
  rw [restoreSlotSettled_at hs hk]
  refine ⟨fun hm => ?_, fun hm => ⟨fun h b hh hb => ?_, fun h hh hb => ?_, fun hh hb => ?_, fun hh hb => ?_⟩⟩
  · rw [State.settleSlot_discarded (SlotMedium.restored_marked hm)]
  · rw [State.settleSlot_valid (SlotMedium.restored_whole hm hh hb), restoredDetail_eq]
    simp only [Option.isNone_some, Bool.false_eq_true, if_false, Nat.zero_add]
    rfl
  · rw [State.settleSlot_valid (SlotMedium.restored_bodiless hm hh hb), restoredDetail_eq]
    rfl
  · rw [State.settleSlot_discarded (SlotMedium.restored_failing hm hh hb)]
  · rw [State.settleSlot_blank (SlotMedium.restored_of_blank hm hh hb)]


/-! ### The most recent serial (R148) -/

theorem lt_foldr_min {b d : Nat} {l : List Nat} : d < l.foldr min b ↔ d < b ∧ ∀ x ∈ l, d < x := by
  induction l with
  | nil => simp
  | cons x l ih =>
    simp only [List.foldr_cons, Nat.lt_min, ih, List.forall_mem_cons]
    exact and_left_comm

/-- The gap after a serial of the list is one longer than the longest run of values after it that no serial of the list
has, counted up modulo 65536. -/
theorem lt_serialGap {l : List Half} {x : Half} (hx : x ∈ l) {d : Nat} :
    d < serialGap l x ↔ ∀ j : Nat, 0 < j → j ≤ d → x + BitVec.ofNat 16 j ∉ l := by
  have gap : d < serialGap l x ↔ d < 65536 ∧ ∀ y ∈ l, y ≠ x → d < (y - x).toNat := by
    simp only [serialGap, lt_foldr_min, List.forall_mem_map, List.mem_filter, bne_iff_ne, and_imp]
  rw [gap]
  constructor
  · rintro ⟨small, apart⟩ j pos hj hm
    have up : (x + BitVec.ofNat 16 j - x).toNat = j := by
      rw [add_sub_cancel_left, BitVec.toNat_ofNat]
      omega
    have := apart _ hm (by bv_omega)
    omega
  · intro free
    refine ⟨?_, fun y hy hne => ?_⟩
    · by_contra large
      exact free 65536 (by decide) (by omega) (by simpa using hx)
    · by_contra near
      refine free (y - x).toNat (by bv_omega) (by omega) ?_
      rwa [BitVec.ofNat_toNat, BitVec.setWidth_eq, BitVec.add_comm, BitVec.sub_add_cancel]

/-- The rank by which the restore picks a serial: the run after it, then its value (R148). -/
def serialRank (l : List Half) (x : Half) : Nat ×ₗ Nat := toLex (serialGap l x, x.toNat)

theorem serialRank_lt {l : List Half} {x y : Half} : serialRank l x < serialRank l y ↔
    serialGap l x < serialGap l y ∨ (serialGap l x = serialGap l y ∧ x.toNat < y.toNat) := Prod.Lex.toLex_lt_toLex

/-- The most recent serial is the one of highest rank. -/
theorem mostRecentSerial_mem_argmax {l : List Half} (hl : l ≠ []) :
    mostRecentSerial l ∈ l.argmax (serialRank l) := by
  obtain ⟨a, t, rfl⟩ := List.exists_cons_of_ne_nil hl
  generalize hr : serialRank (a :: t) = rank
  have step (t : List Half) (a : Half) : some (t.foldl (fun best x => if rank best < rank x then x else best) a) =
      t.foldl (List.argAux fun b c => rank c < rank b) (some a) :=
    (List.foldl_hom some fun b x => (apply_ite some ..).symm).symm
  unfold mostRecentSerial
  simp only [← serialRank_lt, hr, List.headD_cons, List.foldl_cons, lt_irrefl, if_false]
  exact (step t a).symm

/-- The most recent serial, where there is one, has the longest gap after it, and of equal gaps the highest value. -/
theorem mostRecentSerial_latest {l : List Half} (hl : l ≠ []) : mostRecentSerial l ∈ l ∧
    ∀ y ∈ l, y ≠ mostRecentSerial l → serialGap l y ≤ serialGap l (mostRecentSerial l) ∧
      (serialGap l (mostRecentSerial l) ≤ serialGap l y → y.toNat < (mostRecentSerial l).toNat) := by
  have best := mostRecentSerial_mem_argmax hl
  refine ⟨List.argmax_mem best, fun y hy hne => ?_⟩
  have least := serialRank_lt.not.1 (not_lt.2 (List.le_of_mem_argmax hy best))
  have : y.toNat ≠ (mostRecentSerial l).toNat := fun e => hne (BitVec.eq_of_toNat_eq e)
  omega

/-! ### The restore completes (R183) -/

theorem toList_eq_map_finRange {α : Type} {n : Nat} (v : Vector α n) :
    v.toList = (List.finRange n).map fun k => v[k] := by
  refine List.ext_getElem (by simp) fun i _ _ => ?_
  simp

theorem FaultMemory.mem_passingSerials {f : FaultMemory} {x : Half} :
    x ∈ f.passingSerials ↔ ∃ (k : Fin 4) (h : LockHeader), f.medium[k].header = .whole h ∧ h.serial = x := by
  simp only [FaultMemory.passingSerials, toList_eq_map_finRange, List.mem_filterMap, List.mem_map, List.mem_finRange,
    true_and, exists_exists_eq_and]
  refine exists_congr fun k => ?_
  cases f.medium[k].header <;> simp

theorem FaultMemory.validCount_eq (f : FaultMemory) :
    f.validCount = ((List.finRange 4).filter fun k => f.slots[k].code == 2).length := by
  unfold FaultMemory.validCount
  rw [toList_eq_map_finRange, List.countP_map, List.countP_eq_length_filter]
  refine congrArg (fun p => ((List.finRange 4).filter p).length) (funext fun k => ?_)
  dsimp only [Function.comp_apply]
  cases f.slots[k] <;> rfl

/-- A list of cleanup erases starts with the mark phase of its first (R142, R183). -/
theorem FaultMemory.startHead_cleanups {f : FaultMemory} (h : ∀ i ∈ f.work, i.kind = .cleanup) :
    f.startHead = { f with phase := if f.work = [] then none else some .mark } := by
  by_cases hw : f.work = []
  · rw [if_pos hw, FaultMemory.startHead_nil hw]
  · obtain ⟨i, rest, hi⟩ := List.exists_cons_of_ne_nil hw
    have hk : i.kind = .cleanup := h i (by rw [hi]; exact List.mem_cons_self ..)
    rw [if_neg hw, FaultMemory.startHead_mark hi (by rw [hk]; decide)]

theorem restoreComplete_none {s : State} (h : s.fault.restore = none) : restoreComplete s = s := by
  unfold restoreComplete
  rw [h]

/-- A restore that has settled its last slot completes: the serial word, then the part is ready, as one event (R183). -/
theorem restoreComplete_settled {s : State} {j : Nat} {w : SerialWord} (hj : s.fault.restore = some j) (h4 : 4 ≤ j)
    (hw : s.fault.repairSerial = { s.fault with serialWord := w }) (hc : ∀ i ∈ s.fault.work, i.kind = .cleanup) :
    restoreComplete s = ({ s with
      ready := true
      seq := { s.seq with state := .standby }
      fault :=
        { s.fault with
          serialWord := w
          restore := none
          phase := if s.fault.work = [] then none else some .mark } } : State).post .deviceReady none
        (BitVec.ofNat 16 s.fault.validCount) 0 := by
  have left : s.settleFrom j = s := by rw [s.settleFrom_eq, dif_neg (by omega)]
  have repaired : { s.fault.repairSerial with restore := none } =
      ({ s.fault with serialWord := w, restore := none } : FaultMemory) := by rw [hw]
  unfold restoreComplete
  rw [hj]
  dsimp only
  rw [left]
  calc
    _ = ({ s with
          ready := true
          seq := { s.seq with state := .standby }
          fault := FaultMemory.startHead { s.fault.repairSerial with restore := none } } : State).post .deviceReady none
        (BitVec.ofNat 16 ({ s.fault.repairSerial with restore := none } : FaultMemory).validCount) 0 := rfl
    _ = _ := by
      rw [repaired, FaultMemory.startHead_cleanups (f := { s.fault with serialWord := w, restore := none }) hc]
      rfl

/-- The slots that the restore has not settled may as well be settled before its completion is taken (log 13). -/
theorem restoreComplete_settleSlot {s : State} {k : Fin 4} (hk : s.fault.restore = some k.val) :
    restoreComplete (s.settleSlot k) = restoreComplete s := by
  have next : (s.settleSlot k).fault.restore = some (k.val + 1) := by
    rw [(s.settleSlot_aside k).fault]
    rfl
  unfold restoreComplete
  rw [hk, next]
  dsimp only
  rw [s.settleFrom_eq k.val, dif_pos k.isLt]

/-- Settles O8: the completion of a settled restore, the serial it sets by rank, and the slots left before it. -/
theorem restoreCompletion : Obligations.RestoreCompletion := by
  refine ⟨fun s hs h4 hc => ?settled, fun s t j hs hj => ?early, fun s hn => ?none⟩
  case settled =>
    intro valid done carried run
    have completes {w : SerialWord} (hw : s.fault.repairSerial = { s.fault with serialWord := w }) :
        exec .restoreComplete s = .next (done w) := by
      refine congrArg Host.Outcome.next ((awake_of hs _).trans ?_)
      rw [restoreComplete_settled h4 (Nat.le_refl 4) hw hc, s.fault.validCount_eq]
    have mem (x : Half) : carried x ↔ x ∈ s.fault.passingSerials := FaultMemory.mem_passingSerials.symm
    have runs {x : Half} (hx : carried x) (d : Nat) : run x d ↔ d < serialGap s.fault.passingSerials x := by
      simp only [run, mem]
      exact (lt_serialGap ((mem x).1 hx)).symm
    refine ⟨fun x hx => completes ?_, fun hx =>
      ⟨mostRecentSerial s.fault.passingSerials, completes ?_, fun none => ?_, fun ⟨y, hy⟩ => ?_⟩⟩
    · unfold FaultMemory.repairSerial
      rw [hx]
      dsimp only
      rw [← hx]
    · unfold FaultMemory.repairSerial
      rw [hx]
    · rw [List.eq_nil_iff_forall_not_mem.2 fun y hy => none y ((mem y).2 hy)]
      rfl
    · obtain ⟨member, latest⟩ := mostRecentSerial_latest (List.ne_nil_of_mem ((mem y).1 hy))
      refine ⟨(mem _).2 member, fun y hy hne => ?_⟩
      obtain ⟨longest, tie⟩ := latest y ((mem y).1 hy) hne
      simp only [runs hy, runs ((mem _).2 member)]
      refine ⟨fun d hd => Nat.lt_of_lt_of_le hd longest, fun h => tie (Nat.le_of_not_lt fun hlt => ?_)⟩
      exact Nat.lt_irrefl _ (h _ hlt)
  case early =>
    refine ⟨fun h4 ht => ?_, fun h4 => ?_⟩
    · rw [restoreSlotSettled_at (k := ⟨j, h4⟩) hs hj] at ht
      cases ht
      have awake : (s.settleSlot ⟨j, h4⟩).inReset = false := (s.settleSlot_frame _).1.trans hs
      refine congrArg Host.Outcome.next (((awake_of hs _).trans ?_).trans (awake_of awake _).symm)
      exact (restoreComplete_settleSlot hj).symm
    · refine congrArg Host.Outcome.next ((awake_of hs _).trans ?_)
      unfold restoreSlotSettled
      rw [hj]
      exact dif_neg (by omega)
  case none =>
    have idle : restoreSlotSettled s = s := by
      unfold restoreSlotSettled
      rw [hn]
    exact ⟨congrArg Host.Outcome.next (awake_self idle),
      congrArg Host.Outcome.next (awake_self (restoreComplete_none hn))⟩

end Sys2Proof.Machine
end

section
/-! SUPPORT. Lock requests and the phases of a program (R140 to R143, R149). -/

namespace Sys2Proof.Machine

/-! ### Lock requests (R143, R149) -/

/-- No slot is free where all are non-EMPTY (R143). -/
theorem FaultMemory.reservable_none {f : FaultMemory} (h : ∀ k : Fin 4, f.slots[k].nonEmpty = true) :
    f.reservable = none := by
  refine List.find?_eq_none.2 fun k _ => ?_
  dsimp only
  rw [h k]
  decide

/-- The slot reserved is the lowest-numbered EMPTY one (R143). -/
theorem FaultMemory.reservable_lowest {f : FaultMemory} {k : Fin 4} (hk : f.slots[k].nonEmpty = false)
    (h : ∀ j : Fin 4, j < k → f.slots[j].nonEmpty = true) : f.reservable = some k := by
  refine List.find?_eq_some_iff_getElem.2 ⟨congrArg (!·) hk, k.val, by simp, by simp, fun j hj => ?_⟩
  simpa using h ⟨j, by omega⟩ hj

section copy
variable {f : FaultMemory} {n : Fin 32} {body : LockBody} (h : f.copies = [{ entry := n, body := body }])
include h

/-- The one copy that waits is the entry's, and the request takes it (R143). -/
theorem FaultMemory.copyFor_only : f.copyFor n = body := by
  simp [FaultMemory.copyFor, h]

theorem FaultMemory.dropCopy_only : f.dropCopy n = { f with copies := [] } := by
  simp [FaultMemory.dropCopy, h]

end copy

theorem State.lockRequest_none {s : State} (h : s.fault.reservable = none) (n : Fin 32) (mask : Byte) :
    s.lockRequest n mask = (s.modFault fun f => f.dropCopy n).post .lockNotStored (some n.val) 0 3 := by
  unfold State.lockRequest
  rw [h]

theorem State.lockRequest_some {s : State} {k : Fin 4} (h : s.fault.reservable = some k) (n : Fin 32) (mask : Byte) :
    s.lockRequest n mask = s.modFault fun f => (f.reserve k n mask).dropCopy n := by
  unfold State.lockRequest
  rw [h]

/-- Settles O43: the lowest EMPTY slot is the one reserved, and `reserve_cases` gives its three outcomes. -/
theorem lockRequestTaken : Obligations.LockRequestTaken := by
  intro s n mask body hc
  refine ⟨fun full => ?_, fun k lowest => ?_⟩
  · rw [State.lockRequest_none (FaultMemory.reservable_none full), State.modFault, FaultMemory.dropCopy_only hc]
  · intro reserved
    have copy := FaultMemory.copyFor_only hc
    have request {c : Bool} {f : FaultMemory} (hk : s.fault.slots[k] = .empty c) (hf : s.fault.reserve k n mask = f)
        (hfc : f.copies = s.fault.copies) : s.lockRequest n mask = { s with fault := { f with copies := [] } } := by
      rw [State.lockRequest_some (FaultMemory.reservable_lowest (by rw [hk]; rfl) lowest), State.modFault, hf,
        FaultMemory.dropCopy_only (hfc.trans hc)]
    have outcomes {c : Bool} (hk : s.fault.slots[k] = .empty c) :=
      s.fault.reserve_cases (k := k) (by rw [hk]; rfl) n mask
    rw [FaultMemory.copyFor_only hc] at outcomes
    refine ⟨fun hk hw => ?idle, fun hk hw => ?queued, fun hk => ?marked⟩
    case idle =>
      rcases outcomes hk with ⟨h, _⟩ | ⟨_, busy, _⟩ | ⟨_, _, starts⟩
      · cases hk.symm.trans h
      · exact absurd hw busy
      · exact request hk starts rfl
    case queued =>
      rcases outcomes hk with ⟨h, _⟩ | ⟨_, _, waits⟩ | ⟨_, idle, _⟩
      · cases hk.symm.trans h
      · exact request hk waits rfl
      · exact absurd idle hw
    case marked =>
      rcases outcomes hk with ⟨_, upgraded⟩ | ⟨h, _⟩ | ⟨h, _⟩
      · exact request hk upgraded rfl
      · cases hk.symm.trans h
      · cases hk.symm.trans h

/-! ### Programs (R140, R141) -/

/-- The program in flight is the head of the work list, in the phase it has reached. -/
theorem FaultMemory.programming_of {f : FaultMemory} {i : WorkItem} {rest : List WorkItem} (hw : f.work = i :: rest)
    (hk : i.kind = .program ∨ i.kind = .cleanupThenProgram) (p : OpPhase) :
    f.programming p = if f.phase = some p then some i.slot else none := by
  unfold FaultMemory.programming
  rw [hw]
  simp [hk]

section program
variable {f : FaultMemory} {i : WorkItem} {rest : List WorkItem} {e : Fin 32} {m : Byte} {x : Half} {b : LockBody}
  (hw : f.work = i :: rest) (hk : i.kind = .program ∨ i.kind = .cleanupThenProgram)
  (hs : f.slots[i.slot] = .writing e m (some x) b)
include hw hk hs

/-- The serial phase ends: the serial word holds the slot's serial, and the header phase begins (R141). -/
theorem FaultMemory.programPhaseEnd_serial (hp : f.phase = some .serial) :
    f.programPhaseEnd = { f with serialWord := .value x, phase := some .header } := by
  unfold FaultMemory.programPhaseEnd
  rw [FaultMemory.programming_of hw hk, if_pos hp]
  simp only [hs]

/-- The header phase ends: the header stands on the medium, and the body phase begins (R141). -/
theorem FaultMemory.programPhaseEnd_header (hp : f.phase = some .header) : f.programPhaseEnd = { f with
    medium := f.medium.set i.slot { f.medium[i.slot] with header := .whole { entry := e, mask := m, serial := x } }
    phase := some .body } := by
  unfold FaultMemory.programPhaseEnd
  rw [FaultMemory.programming_of hw hk, FaultMemory.programming_of hw hk, if_neg (by simp [hp]), if_pos hp]
  simp only [hs]
  rfl

end program

/-- The body phase ends: the record is whole, its slot VALID, its K-holder joins, and the next item starts (R141). -/
theorem programComplete_body {s : State} {i : WorkItem} {rest : List WorkItem} {e : Fin 32} {m : Byte} {x : Half}
    {b : LockBody} (hw : s.fault.work = i :: rest) (hk : i.kind = .program ∨ i.kind = .cleanupThenProgram)
    (hs : s.fault.slots[i.slot] = .writing e m (some x) b) (hp : s.fault.phase = some .body) :
    programComplete s = { ({ s with
      switches := Vector.ofFn fun j =>
        if m.getLsbD j.val then s.switches[j].join (.k i.slot) else s.switches[j] } : State).post .lockStored
          (some i.slot.val) (BitVec.ofNat 16 e.val) 2 with
      fault :=
        ({ s.fault with
          medium := s.fault.medium.set i.slot { s.fault.medium[i.slot] with body := .whole b }
          slots := s.fault.slots.set i.slot (.valid { entry := e, mask := m, serial := x } (some b))
          work := s.fault.work.tail } : FaultMemory).startHead } := by
  unfold programComplete
  rw [FaultMemory.programming_of hw hk, if_pos hp]
  simp only [hs]
  rfl

/-- Settles O44: the head of the work list says what starts, and the phase reached what ends. -/
theorem programPhases : Obligations.ProgramPhases := by
  refine ⟨fun f k rest => ⟨FaultMemory.startHead_nil, fun kind hk hw => FaultMemory.startHead_mark hw hk,
    fun e m y b x hw hs hx => ?_⟩,
    fun s i rest e m x b hr hw hk hs => ⟨fun hp => ?_, fun hp => ?_, fun hp => ?_⟩⟩
  · rw [FaultMemory.startHead_program hw rfl, FaultMemory.startProgram_of_writing hs, hx]
    rfl
  · refine congrArg Host.Outcome.next ((awake_of hr _).trans ?_)
    rw [State.modFault, FaultMemory.programPhaseEnd_serial hw hk hs hp]
  · refine congrArg Host.Outcome.next ((awake_of hr _).trans ?_)
    rw [State.modFault, FaultMemory.programPhaseEnd_header hw hk hs hp]
  · refine congrArg Host.Outcome.next ((awake_of hr _).trans ?_)
    rw [programComplete_body hw hk hs hp, hw]
    rfl

end Sys2Proof.Machine
end

section
/-! SUPPORT. The pages as the host reads them, byte by byte (R135, R150, R176 to R180): how bytes follow each other on a
page, the bytes of each record, and which record each page shows. -/

namespace Sys2Proof.Machine

/-! ### Bytes in a row -/

/-- The first `n` bytes of a field, low byte first (00_scope, Numbers and units). -/
def fieldBytes {w : Nat} (x : BitVec w) (n : Nat) : List Byte := (List.range n).map (byteOf x)

/-- Bytes that read 0. -/
def zeroBytes (n : Nat) : List Byte := List.replicate n 0

/-- What a page shows is read in two stretches. -/
theorem map_range_add {α : Type} (a b : Nat) (g : Nat → α) :
    (List.range (a + b)).map g = (List.range a).map g ++ (List.range b).map fun j => g (a + j) := by
  rw [List.range_add, List.map_append, List.map_map]
  rfl

/-- A stretch of `w` bytes for each element of a list. -/
theorem map_range_groups {α β : Type} (w : Nat) {l : List α} {g : Nat → β} {b : α → Nat → β}
    (h : ∀ (j i : Nat) (hj : j < l.length), i < w → g (w * j + i) = b l[j] i) :
    (List.range (w * l.length)).map g = l.flatMap fun x => (List.range w).map (b x) := by
  induction l generalizing g with
  | nil => rfl
  | cons x l ih =>
    have rest := ih (g := fun i => g (w + i)) fun j i hj hi => by
      refine Eq.trans ?_ (h (j + 1) i (Nat.succ_lt_succ hj) hi)
      rw [Nat.mul_succ, Nat.add_comm _ w, Nat.add_assoc]
    have first : (List.range w).map g = (List.range w).map (b x) := by
      refine List.map_congr_left fun i hi => ?_
      have place := h 0 i (Nat.succ_pos _) (List.mem_range.1 hi)
      rwa [Nat.mul_zero, Nat.zero_add] at place
    rw [List.length_cons, Nat.mul_succ, Nat.add_comm, map_range_add, List.flatMap_cons, ← rest, first]

/-- A stretch of `w` bytes for each record of a vector. -/
theorem map_range_vector {α β : Type} {n : Nat} (w : Nat) (v : Vector α n) {g : Nat → β} {b : α → Nat → β}
    (h : ∀ (j i : Nat) (hj : j < n), i < w → g (w * j + i) = b v[j] i) :
    (List.range (w * n)).map g = v.toList.flatMap fun x => (List.range w).map (b x) := by
  have groups := map_range_groups w (l := v.toList) (g := g) (b := b) fun j i hj hi => by
    rw [Vector.getElem_toList]
    exact h j i _ hi
  rwa [Vector.length_toList] at groups

/-- A byte for each record of a vector. -/
theorem map_range_each {α β : Type} {n : Nat} (v : Vector α n) {g : Nat → β} {f : α → β}
    (h : ∀ (j : Nat) (hj : j < n), g j = f v[j]) : (List.range n).map g = v.toList.map f := by
  refine List.ext_getElem (by simp) fun j hj _ => ?_
  simp [h j (by simpa using hj)]

/-- A stretch of `w` bytes for each of `n` places of a list; a place beyond its length reads 0. -/
theorem map_range_places {α : Type} (w n : Nat) {l : List α} {g : Nat → Byte} {b : α → Nat → Byte}
    (h : ∀ j i, j < n → i < w → g (w * j + i) = l[j]?.elim 0 (b · i)) :
    (List.range (w * n)).map g =
      (List.range n).flatMap fun j => l[j]?.elim (zeroBytes w) fun x => (List.range w).map (b x) := by
  have groups := map_range_groups w (l := List.range n) (g := g) (b := fun j i => l[j]?.elim 0 (b · i))
    fun j i hj hi => by
      rw [List.length_range] at hj
      rw [List.getElem_range]
      exact h j i hj hi
  rw [List.length_range] at groups
  rw [groups]
  refine congrArg (fun f => (List.range n).flatMap f) (funext fun j => ?_)
  cases l[j]? with
  | none => simp [zeroBytes]
  | some x => rfl

/-- The place of a byte in groups of four. -/
theorem group_place {j i : Nat} (hi : i < 4) : (4 * j + i) / 4 = j ∧ (4 * j + i) % 4 = i := by
  omega

/-- A byte of three flags, the first in bit 0 (R178). -/
theorem flagByte_three (a b c : Bool) : (BitVec.ofBool c ++ BitVec.ofBool b ++ BitVec.ofBool a).zeroExtend 8 =
    BitVec.ofNat 8 ((if a then 1 else 0) + (if b then 2 else 0) + (if c then 4 else 0)) := by
  revert a b c
  decide

theorem flagByte_two (a b : Bool) : (BitVec.ofBool b ++ BitVec.ofBool a).zeroExtend 8 =
    BitVec.ofNat 8 ((if a then 1 else 0) + (if b then 2 else 0)) := by
  revert a b
  decide

theorem flagByte_one (a : Bool) : (BitVec.ofBool a).zeroExtend 8 = BitVec.ofNat 8 (if a then 1 else 0) := by
  revert a
  decide

/-! ### Entries, channels, measurement records and switches (R177, R178, R180) -/

/-- The bytes of an entry configuration, in the order of R177. -/
def EntryConfig.layout (c : EntryConfig) : List Byte :=
  [c.enabled, c.source, c.valueKind, c.direction] ++ fieldBytes c.trip 2 ++ fieldBytes c.recovery 2 ++
    fieldBytes c.dwell 2 ++ [c.recoveryMode, 0] ++ fieldBytes c.recoveryTime 2 ++
    [c.tier, c.mask, c.abort, c.eventClass, c.transients, c.deratePresent, c.derateRef, 0] ++
    fieldBytes c.derateDelta 2 ++ [c.companionCount, c.companion0, c.companion1, c.companion2]

theorem EntryConfig.page_bytes (c : EntryConfig) : (List.range 64).map c.byte = c.layout ++ zeroBytes 36 := rfl

theorem Entry.page_bytes (e : Entry) : (List.range 64).map e.byte = e.config.layout ++ zeroBytes 4 ++
    [e.state.code, BitVec.ofNat 8 ((if e.pendingLoad.isSome then 1 else 0) + (if e.lastCapture.isSome then 2 else 0)),
      e.lastCapture.getD 0, e.assertions, e.transients, 0] ++ fieldBytes e.dwellTimer.shown 2 ++
      fieldBytes e.recoveryTimer.shown 2 ++ zeroBytes 22 := by
  rw [← flagByte_two]
  rfl

/-- The bytes of a switch configuration, in the order of R180. -/
def SwitchConfig.layout (c : SwitchConfig) : List Byte :=
  [c.enabled, c.goodChannel] ++ fieldBytes c.goodThreshold 2 ++ fieldBytes c.offThreshold 2 ++
    fieldBytes c.rampTimeout 2 ++ fieldBytes c.dischargeTimeout 2 ++ [c.restartMode, c.tripResponse]

theorem SwitchConfig.page_bytes (c : SwitchConfig) : (List.range 64).map c.byte = c.layout ++ zeroBytes 52 := rfl

theorem Switch.page_bytes (w : Switch) : (List.range 64).map w.byte = w.config.layout ++ zeroBytes 4 ++
    [BitVec.ofNat 8 (if w.demand then 1 else 0), w.state.code, BitVec.ofNat 8 (if w.discharged then 1 else 0), 0] ++
      fieldBytes w.rampTimer.shown 2 ++ zeroBytes 2 ++ fieldBytes w.holds 5 ++ zeroBytes 35 := by
  rw [← flagByte_one, ← flagByte_one]
  rfl

/-- The bytes of a measurement record, in the order of R178. -/
def MeasRecord.layout (m : MeasRecord) : List Byte :=
  [BitVec.ofNat 8 ((if m.valid then 1 else 0) + (if m.clipped then 2 else 0) + (if m.stale then 4 else 0)), 0] ++
    fieldBytes m.latest 2 ++ fieldBytes m.average 2 ++ fieldBytes m.minimum 2 ++ fieldBytes m.maximum 2 ++
    fieldBytes m.sampleFrame 4 ++ fieldBytes m.count 2

theorem MeasRecord.bytes (m : MeasRecord) : (List.range 16).map m.byte = m.layout := by
  unfold MeasRecord.layout
  rw [← flagByte_three]
  rfl

theorem ChannelStaging.page_bytes (c : ChannelStaging) : (List.range 64).map c.byte =
    [c.kind, 0] ++ fieldBytes c.gain 2 ++ fieldBytes c.offset 2 ++ [c.weight] ++ zeroBytes 57 := rfl

/-- A page of two parts: a measurement record in the first 16 bytes, and a configuration after it (R178). -/
theorem MeasRecord.page_bytes (m : MeasRecord) (config : Nat → Byte) :
    ((List.range 64).map fun off => if off < 0x10 then m.byte off else config off) =
      m.layout ++ (List.range 48).map fun j => config (16 + j) := by
  rw [← m.bytes]
  rfl

/-! ### Lists of steps (R180) -/

theorem seqListByte_timings (l : List SeqStep) : (List.range 64).map (seqListByte l 0) =
    (List.range 16).flatMap fun j => l[j]?.elim (zeroBytes 4) fun t => (List.range 4).map t.timing :=
  map_range_places 4 16 fun j i _ hi => by
    unfold seqListByte
    rw [(group_place hi).1, (group_place hi).2]
    cases l[j]? <;> rfl

theorem seqListByte_switches (l : List SeqStep) : (List.range 64).map (seqListByte l 1) =
    [BitVec.ofNat 8 l.length] ++ zeroBytes 15 ++
      ((List.range 16).map fun j => l[j]?.elim 0 fun t => BitVec.ofNat 8 t.switch.val) ++ zeroBytes 32 := by
  have switches : ((List.range 16).map fun j => seqListByte l 1 (16 + j)) =
      (List.range 16).map fun j => l[j]?.elim 0 fun t => BitVec.ofNat 8 t.switch.val :=
    List.map_congr_left fun j hj => by
      have hj := List.mem_range.1 hj
      unfold seqListByte
      rw [if_neg (by omega), if_pos (by omega), Nat.add_sub_cancel_left]
      cases l[j]? <;> rfl
  rw [← switches]
  rfl

/-- A list in force has two parts (R180). -/
theorem seqListByte_absent (l : List SeqStep) {part : Nat} (h : 2 ≤ part) : seqListByte l part = fun _ => 0 := by
  obtain ⟨part, rfl⟩ := Nat.exists_eq_add_of_le' h
  rfl

section staging
variable (t : SeqStaging)

theorem SeqStaging.up_bytes : (List.range 64).map (t.byte 0) =
    t.up.toList.flatMap fun u => (List.range 4).map u.timing :=
  map_range_vector 4 t.up fun j i hj hi => by
    unfold SeqStaging.byte
    rw [dif_pos (by omega)]
    simp only [(group_place hi).1, (group_place hi).2]

theorem SeqStaging.down_bytes : (List.range 64).map (t.byte 1) =
    t.down.toList.flatMap fun u => (List.range 4).map u.timing :=
  map_range_vector 4 t.down fun j i hj hi => by
    unfold SeqStaging.byte
    rw [dif_pos (by omega)]
    simp only [(group_place hi).1, (group_place hi).2]

theorem SeqStaging.switch_bytes : (List.range 64).map (t.byte 2) =
    [t.upLength, t.downLength] ++ zeroBytes 14 ++ t.up.toList.map StagedSeqStep.switch ++
      t.down.toList.map StagedSeqStep.switch ++ zeroBytes 16 := by
  have up : ((List.range 16).map fun j => t.byte 2 (16 + j)) = t.up.toList.map StagedSeqStep.switch :=
    map_range_each t.up fun j hj => by
      unfold SeqStaging.byte
      rw [dif_pos (by omega), if_neg (by omega), if_neg (by omega), dif_pos (by omega)]
      simp only [Nat.add_sub_cancel_left]
  have down : ((List.range 16).map fun j => t.byte 2 (32 + j)) = t.down.toList.map StagedSeqStep.switch :=
    map_range_each t.down fun j hj => by
      unfold SeqStaging.byte
      rw [dif_pos (by omega), if_neg (by omega), if_neg (by omega), dif_neg (by omega), dif_pos (by omega)]
      simp only [Nat.add_sub_cancel_left]
  rw [← up, ← down]
  rfl

/-- Page 0x43 has three parts (R180). -/
theorem SeqStaging.byte_absent {part : Nat} (h : 3 ≤ part) : t.byte part = fun _ => 0 := by
  obtain ⟨part, rfl⟩ := Nat.exists_eq_add_of_le' h
  funext off
  exact dite_eq_right_iff.2 fun _ => rfl

end staging

theorem ScanStaging.page_bytes (t : ScanStaging) : (List.range 64).map t.byte =
    [t.length, 0, 0, 0] ++ (t.steps.toList.flatMap fun u => [u.a, u.b, u.c, u.settle]) ++ zeroBytes 12 := by
  have steps : ((List.range 48).map fun j => t.byte (4 + j)) =
      t.steps.toList.flatMap fun u => (List.range 4).map u.byteAt :=
    map_range_vector 4 t.steps fun j i hj hi => by
      rw [t.byte_eq, if_neg (by omega), dif_pos (by omega)]
      simp only [Nat.add_sub_cancel_left, (group_place hi).1, (group_place hi).2]
  change _ = [t.length, 0, 0, 0] ++ (t.steps.toList.flatMap fun u => (List.range 4).map u.byteAt) ++ zeroBytes 12
  rw [← steps]
  rfl

/-- The four bytes of a step of the Scan List in force (R180). -/
def ScanStep.byteAt (t : ScanStep) (i : Nat) : Byte :=
  match i with
  | 0 => channelByte t.a
  | 1 => channelByte t.b
  | 2 => channelByte t.c
  | _ => BitVec.ofNat 8 t.settle.val

theorem scanListByte_page (l : List ScanStep) : (List.range 64).map (scanListByte l) =
    [BitVec.ofNat 8 l.length, 0, 0, 0] ++
      ((List.range 12).flatMap fun j => l[j]?.elim (zeroBytes 4) fun t => (List.range 4).map t.byteAt) ++
      zeroBytes 12 := by
  have steps : ((List.range 48).map fun j => scanListByte l (4 + j)) =
      (List.range 12).flatMap fun j => l[j]?.elim (zeroBytes 4) fun t => (List.range 4).map t.byteAt :=
    map_range_places 4 12 fun j i hj hi => by
      unfold scanListByte
      rw [if_neg (by omega), if_pos (by omega), Nat.add_sub_cancel_left, (group_place hi).1, (group_place hi).2]
      cases l[j]? <;> rfl
  rw [← steps]
  rfl

/-- The written derived configurations, four bytes each (R178). -/
theorem derivedByte_page (v : Vector DerivedWritten 4) : (List.range 64).map (derivedByte v) =
    (v.toList.flatMap fun w => [w.op, w.a, w.b, w.weight]) ++ zeroBytes 48 := by
  have written : (List.range 16).map (derivedByte v) = v.toList.flatMap fun w => (List.range 4).map w.byte :=
    map_range_vector 4 v fun j i hj hi => by
      unfold derivedByte
      rw [dif_pos (by omega)]
      simp only [(group_place hi).1, (group_place hi).2]
  change _ = (v.toList.flatMap fun w => (List.range 4).map w.byte) ++ zeroBytes 48
  rw [← written]
  rfl

/-! ### Captures and slots (R135, R150, R179) -/

/-- The four bytes of a companion (R179). -/
def Companion.byteAt (c : Companion) (i : Nat) : Byte :=
  match i with
  | 0 => BitVec.ofNat 8 c.channel.val
  | 1 => 0
  | 2 => byteOf c.reading 0
  | _ => byteOf c.reading 1

theorem companionByte_bytes (l : List Companion) : (List.range 12).map (companionByte l) =
    (List.range 3).flatMap fun j => l[j]?.elim (zeroBytes 4) fun c => (List.range 4).map c.byteAt :=
  map_range_places 4 3 fun j i _ hi => by
    unfold companionByte
    rw [(group_place hi).1, (group_place hi).2]
    cases l[j]? <;> rfl

/-- The figures of a body, in the order of R179. -/
def LockBody.layout (b : LockBody) : List Byte :=
  [b.captureId, BitVec.ofNat 8 b.companions.length] ++ fieldBytes b.trigger 2 ++ fieldBytes b.threshold 2 ++
    (List.range 3).flatMap fun j => b.companions[j]?.elim (zeroBytes 4) fun c => (List.range 4).map c.byteAt

theorem LockBody.bytes (b : LockBody) : ((List.range 18).map fun j => b.byte (6 + j)) = b.layout := by
  unfold LockBody.layout
  rw [← companionByte_bytes]
  rfl

theorem CaptureRecord.page_bytes (r : CaptureRecord) : (List.range 64).map r.byte =
    [BitVec.ofNat 8 (1 + if r.pinned then 2 else 0), 0, BitVec.ofNat 8 r.entry.val, 0, 0, 0] ++ r.lockBody.layout ++
      fieldBytes r.timestamp 4 ++ fieldBytes r.frame 4 ++ zeroBytes 32 := by
  have flags := flagByte_two true r.pinned
  rw [if_pos rfl] at flags
  rw [← flags, ← r.lockBody.bytes]
  rfl

section slot
variable {f : FaultMemory} {k : Fin 4}

/-- An EMPTY slot shows its state and cleanup mark alone (R150). -/
theorem FaultMemory.slotBytes_empty {cleanup : Bool} (hs : f.slots[k] = .empty cleanup) :
    (List.range 64).map (f.slotByte k) = [0, BitVec.ofNat 8 (if cleanup then 1 else 0)] ++ zeroBytes 62 := by
  have flags :
      (BitVec.ofBool false ++ BitVec.ofBool false ++ BitVec.ofBool false ++ BitVec.ofBool cleanup).zeroExtend 8 =
        BitVec.ofNat 8 (if cleanup then 1 else 0) := by
    clear hs
    revert cleanup
    decide
  rw [← flags]
  unfold FaultMemory.slotByte
  rw [hs]
  rfl

/-- Whether a slot's item is in flight or waits, as the slot's page shows it in bits 2 and 3 (R150). -/
def FaultMemory.itemFlags (f : FaultMemory) (k : Fin 4) : Nat :=
  if f.phase ≠ none ∧ f.work.head?.map WorkItem.slot = some k then 4
  else if ∃ i ∈ f.work, i.slot = k then 8 else 0

theorem FaultMemory.inFlight_iff :
    f.inFlight k = true ↔ f.phase ≠ none ∧ f.work.head?.map WorkItem.slot = some k := by
  simp [FaultMemory.inFlight, Option.isSome_iff_ne_none]

theorem FaultMemory.waiting_iff : f.waiting k = true ↔ (∃ i ∈ f.work, i.slot = k) ∧ ¬f.inFlight k = true := by
  simp [FaultMemory.waiting]

/-- The flag byte of a slot that is not EMPTY: no cleanup mark, the body, and the item (R150). -/
theorem slotFlags_eq (body : Bool) :
    (BitVec.ofBool (f.waiting k) ++ BitVec.ofBool (f.inFlight k) ++ BitVec.ofBool body ++
      BitVec.ofBool false).zeroExtend 8 = BitVec.ofNat 8 ((if body then 2 else 0) + f.itemFlags k) := by
  unfold FaultMemory.itemFlags
  by_cases flying : f.inFlight k = true
  · have idle : f.waiting k = false := Bool.eq_false_iff.2 fun h => (FaultMemory.waiting_iff.1 h).2 flying
    rw [idle, if_pos (FaultMemory.inFlight_iff.1 flying), flying]
    revert body
    decide
  · rw [if_neg fun h => flying (FaultMemory.inFlight_iff.2 h), Bool.eq_false_iff.2 flying]
    by_cases queued : ∃ i ∈ f.work, i.slot = k
    · rw [if_pos queued, FaultMemory.waiting_iff.2 ⟨queued, flying⟩]
      revert body
      decide
    · rw [if_neg queued, Bool.eq_false_iff.2 fun h => queued (FaultMemory.waiting_iff.1 h).1]
      revert body
      decide

/-- A slot that is not EMPTY shows its header, and its body where that is present (R150; log 14). -/
theorem FaultMemory.slotBytes_held {h : LockHeader} (hs : f.slots[k].headerShown = some h) :
    (List.range 64).map (f.slotByte k) =
      [f.slots[k].code, BitVec.ofNat 8 ((if f.slots[k].bodyShown.isSome then 2 else 0) + f.itemFlags k),
        BitVec.ofNat 8 h.entry.val, h.mask] ++ fieldBytes h.serial 2 ++
        f.slots[k].bodyShown.elim (zeroBytes 18) LockBody.layout ++ zeroBytes 40 := by
  have held : f.slots[k].nonEmpty = true ∧ f.slots[k].cleanup = false := by
    revert hs
    cases f.slots[k] <;> simp [SlotView.headerShown, SlotView.nonEmpty, SlotView.cleanup]
  have body : ((List.range 18).map fun j => (f.slots[k].bodyShown.map fun b => b.byte (6 + j)).getD 0) =
      f.slots[k].bodyShown.elim (zeroBytes 18) LockBody.layout := by
    cases f.slots[k].bodyShown with
    | none => rfl
    | some b => exact b.bytes
  have unused : ((List.range 40).map fun j => (f.slots[k].bodyShown.map fun b => b.byte (24 + j)).getD 0) =
      zeroBytes 40 := by
    cases f.slots[k].bodyShown <;> rfl
  rw [← slotFlags_eq, ← body, ← unused]
  unfold FaultMemory.slotByte
  dsimp only
  rw [held.1, held.2, hs]
  rfl

end slot

/-! ### The pages (R176) -/

section pages
variable (s : State)

theorem State.pageByte_entry (n : Fin 32) : s.pageByte (0x01 + n.val) 0 = s.entries[n].byte := by
  funext off
  unfold State.pageByte
  simp (disch := omega) only [ne_eq, not_true_eq_false, false_and, if_false, if_neg, dif_pos, Nat.add_sub_cancel_left]
  rfl

theorem State.pageByte_channel (ch : Fin 18) : s.pageByte (0x22 + ch.val) 0 =
    fun off => if off < 0x10 then s.records[channelSource ch].byte off else s.scan.channels[ch].byte off := by
  funext off
  unfold State.pageByte
  simp (disch := omega) only [ne_eq, not_true_eq_false, false_and, if_false, if_neg, dif_neg, dif_pos,
    Nat.add_sub_cancel_left]
  rfl

theorem State.pageByte_derived (d : Fin 4) : s.pageByte (0x34 + d.val) 0 =
    fun off => if off < 0x10 then s.records[derivedSource d].byte off else s.derivedInForce[d].byte off := by
  have source : 0x34 + d.val - 0x22 = 18 + d.val := by omega
  funext off
  unfold State.pageByte
  simp (disch := omega) only [ne_eq, not_true_eq_false, false_and, if_false, if_neg, dif_neg, dif_pos,
    Nat.add_sub_cancel_left, source]
  rfl

theorem State.pageByte_switch (i : Fin 8) : s.pageByte (0x39 + i.val) 0 = s.switches[i].byte := by
  funext off
  unfold State.pageByte
  simp (disch := omega) only [ne_eq, not_true_eq_false, false_and, if_false, if_neg, dif_neg, dif_pos,
    Nat.add_sub_cancel_left]
  rfl

theorem State.pageByte_capture {j : Nat} (hj : j < 8) :
    s.pageByte (0x46 + j) 0 = s.captures.records[j]?.elim (fun _ => 0) CaptureRecord.byte := by
  funext off
  unfold State.pageByte
  simp (disch := omega) only [ne_eq, not_true_eq_false, false_and, if_false, if_neg, dif_neg, if_pos,
    Nat.add_sub_cancel_left]
  cases s.captures.records[j]? <;> rfl

theorem State.pageByte_slot (k : Fin 4) : s.pageByte (0x4E + k.val) 0 = s.fault.slotByte k := by
  funext off
  unfold State.pageByte
  simp (disch := omega) only [ne_eq, not_true_eq_false, false_and, if_false, if_neg, dif_neg, dif_pos,
    Nat.add_sub_cancel_left]

theorem State.pageByte_upList (q : Nat) : s.pageByte 0x41 q = seqListByte s.seq.upList q := by
  funext off
  exact if_neg fun h => absurd h.2 (by decide)

theorem State.pageByte_downList (q : Nat) : s.pageByte 0x42 q = seqListByte s.seq.downList q := by
  funext off
  exact if_neg fun h => absurd h.2 (by decide)

theorem State.pageByte_stagedLists (q : Nat) : s.pageByte 0x43 q = s.seq.staging.byte q := by
  funext off
  exact if_neg fun h => absurd h.2 (by decide)

theorem isSequencePage_iff {p : Nat} : isSequencePage p = true ↔ p = 0x41 ∨ p = 0x42 ∨ p = 0x43 := by
  simp [isSequencePage, or_assoc]

/-- A page without parts has nothing on the others, a list in force has two parts, the staged lists have three, and the
pages from 0x53 on are unused (R176). -/
theorem State.pageByte_unused {p q : Nat}
    (h : 0x53 ≤ p ∨ 3 ≤ q ∨ (0 < q ∧ p ≠ 0x41 ∧ p ≠ 0x42 ∧ p ≠ 0x43) ∨ (q = 2 ∧ p ≠ 0x43)) :
    s.pageByte p q = fun _ => 0 := by
  funext off
  by_cases parts : isSequencePage p = true
  · rcases isSequencePage_iff.1 parts with rfl | rfl | rfl
    · rw [s.pageByte_upList, seqListByte_absent _ (by omega)]
    · rw [s.pageByte_downList, seqListByte_absent _ (by omega)]
    · rw [s.pageByte_stagedLists, s.seq.staging.byte_absent (by omega)]
  · unfold State.pageByte
    by_cases hq : q = 0
    · have unused : 0x53 ≤ p := by omega
      simp (disch := omega) only [if_neg, dif_neg]
    · exact if_pos ⟨hq, by simpa using parts⟩

end pages

end Sys2Proof.Machine
end

section
/-! SUPPORT. The fields of two or more bytes (R170; log 15), and the pages put together. -/

namespace Sys2Proof.Machine

/-! ### The table of fields -/

/-- The fields of an entry configuration, each with its lowest byte and its length (R177). -/
def configFields : List (Nat × Nat) := [(0x04, 2), (0x06, 2), (0x08, 2), (0x0C, 2), (0x16, 2), (0x19, 3)]

/-- The figures that a capture page and a slot page share (R179). -/
def figureFields : List (Nat × Nat) := [(0x08, 2), (0x0A, 2), (0x0C, 12)]

/-- The fields of a part of a page (R177 to R180). -/
def pageFields (p q : Nat) : List (Nat × Nat) :=
  if p = 0x41 ∨ p = 0x42 ∨ p = 0x43 then
    if q = 0 ∨ (q = 1 ∧ p = 0x43) then (List.range 32).map fun j => (2 * j, 2) else []
  else if q ≠ 0 then []
  else if p = 0x00 then configFields
  else if p ≤ 0x20 then configFields ++ [(0x26, 2), (0x28, 2)]
  else if p = 0x21 then [(0x02, 2), (0x04, 2)]
  else if p ≤ 0x37 then [(0x02, 2), (0x04, 2), (0x06, 2), (0x08, 2), (0x0A, 4), (0x0E, 2), (0x10, 8)]
  else if p = 0x38 then [(0x02, 2), (0x04, 2), (0x06, 2), (0x08, 2)]
  else if p ≤ 0x40 then [(0x02, 2), (0x04, 2), (0x06, 2), (0x08, 2), (0x14, 2), (0x18, 5)]
  else if 0x46 ≤ p ∧ p ≤ 0x4D then figureFields ++ [(0x18, 4), (0x1C, 4)]
  else if 0x4E ≤ p ∧ p ≤ 0x51 then (0x04, 2) :: figureFields
  else []

/-- The timing bytes of a sequence page are fields of two bytes each (R180). -/
theorem timingFields_lookup {off : Nat} (h : off < 64) :
    (if off % 2 = 0 then some 2 else none) = ((List.range 32).map fun j => (2 * j, 2)).lookup off := by
  revert off
  decide

theorem entryFieldLength_eq {off : Nat} (h : off < 64) : entryFieldLength false off = configFields.lookup off ∧
    entryFieldLength true off = (configFields ++ [(0x26, 2), (0x28, 2)]).lookup off := by
  revert off
  decide

theorem pageFieldLength_eq {p q off : Nat} (h : off < 64) : pageFieldLength p q off = (pageFields p q).lookup off := by
  unfold pageFieldLength pageFields
  simp only [apply_ite (List.lookup off)]
  refine if_ctx_congr isSequencePage_iff (fun _ => ?sequence) fun _ => if_ctx_congr Iff.rfl (fun _ => rfl) fun _ =>
    if_ctx_congr Iff.rfl (fun _ => (entryFieldLength_eq h).1) fun _ =>
    if_ctx_congr Iff.rfl (fun _ => (entryFieldLength_eq h).2) fun _ =>
    if_ctx_congr Iff.rfl (fun _ => ?staging) fun _ => if_ctx_congr Iff.rfl (fun _ => ?record) fun _ => ?rest
  case sequence =>
    by_cases timed : q = 0 ∨ q = 1 ∧ p = 0x43
    · simp only [timed, true_and, if_true]
      exact timingFields_lookup h
    · simp only [timed, false_and, if_false, List.lookup_nil]
  case staging => decide +revert
  case record => decide +revert
  case rest =>
    by_cases staging : p = 0x38
    · rw [if_pos (by omega), if_pos staging, staging]
      decide +revert
    · rw [if_neg staging]
      simp only [ne_eq, staging, not_false_eq_true, true_and]
      refine if_ctx_congr Iff.rfl (fun _ => ?switch) fun _ => if_ctx_congr Iff.rfl (fun _ => ?capture) fun _ =>
        if_ctx_congr Iff.rfl (fun _ => ?slot) fun _ => rfl
      case switch => decide +revert
      case capture => decide +revert
      case slot => decide +revert

theorem Port.fieldLength_page (p : Port) {off : Nat} (h : off < 64) :
    p.fieldLength (0x40 + off) = (pageFields p.page.toNat p.part.toNat).lookup off := by
  unfold Port.fieldLength
  simp (disch := omega) only [if_neg, if_pos, Nat.add_sub_cancel_left]
  exact pageFieldLength_eq h

/-- Settles O12: each page shows its record, and the bytes of the record stand in the order of its layout. -/
theorem readbackPages : Obligations.ReadbackPages := by
  intro s page zeros num bit le2 le4 left entry record switch timings switches staged slotOf companions body item held
  have shows {p q : Nat} {g : Nat → Byte} {l : List Byte} (hg : s.pageByte p q = g) (hl : (List.range 64).map g = l) :
      page p q = l := by
    rw [← hl, ← hg]
  have timings_eq (l : List SeqStep) : timings l = (List.range 64).map (seqListByte l 0) := by
    rw [seqListByte_timings]
    refine congrArg (fun f => (List.range 16).flatMap f) (funext fun j => ?_)
    cases l[j]? <;> rfl
  have switches_eq (l : List SeqStep) : switches l = (List.range 64).map (seqListByte l 1) := by
    rw [seqListByte_switches]
    refine congrArg (fun f => num l.length :: (zeros 15 ++ (List.range 16).map f ++ zeros 32)) (funext fun j => ?_)
    cases l[j]? <;> rfl
  have slotOf_eq (c : Option (Fin 18)) : slotOf c = channelByte c := by cases c <;> rfl
  have body_eq (b : Option LockBody) : body b = b.elim (zeroBytes 18) LockBody.layout := by
    cases b with
    | none => rfl
    | some b =>
      refine congrArg (fun f => [b.captureId, num b.companions.length] ++ le2 b.trigger ++ le2 b.threshold ++
        (List.range 3).flatMap f) (funext fun j => ?_)
      cases b.companions[j]? <;> rfl
  have held_eq {k : Fin 4} {h : LockHeader} (hs : s.fault.slots[k].headerShown = some h) :
      (List.range 64).map (s.fault.slotByte k) =
        held s.fault.slots[k].code k h.entry h.mask h.serial s.fault.slots[k].bodyShown := by
    rw [FaultMemory.slotBytes_held hs, ← body_eq]
    rfl
  refine ⟨shows rfl s.entryStaging.page_bytes, fun n => shows (s.pageByte_entry n) s.entries[n].page_bytes,
    shows rfl s.scan.channelStaging.page_bytes, fun ch => shows (s.pageByte_channel ch) (MeasRecord.page_bytes ..),
    fun d => shows (s.pageByte_derived d) (MeasRecord.page_bytes ..), shows rfl s.switchStaging.page_bytes,
    fun i => shows (s.pageByte_switch i) s.switches[i].page_bytes,
    shows (s.pageByte_upList 0) (timings_eq _).symm, shows (s.pageByte_upList 1) (switches_eq _).symm,
    shows (s.pageByte_downList 0) (timings_eq _).symm, shows (s.pageByte_downList 1) (switches_eq _).symm,
    shows (s.pageByte_stagedLists 0) s.seq.staging.up_bytes, shows (s.pageByte_stagedLists 1) s.seq.staging.down_bytes,
    shows (s.pageByte_stagedLists 2) s.seq.staging.switch_bytes, shows rfl s.scan.staging.page_bytes,
    shows rfl ?scanList, fun j hj => shows (s.pageByte_capture hj) ?capture, fun k => shows (s.pageByte_slot k) ?slot,
    shows rfl (derivedByte_page s.derivedWritten), fun p q h => shows (s.pageByte_unused h) ?unused,
    fun off h => s.port.fieldLength_page h⟩
  case scanList =>
    refine (scanListByte_page s.scan.list).trans ?_
    refine congrArg (fun f => [num s.scan.list.length, 0, 0, 0] ++ (List.range 12).flatMap f ++ zeros 12)
      (funext fun j => ?_)
    cases s.scan.list[j]? with
    | none => rfl
    | some t =>
      change [channelByte t.a, channelByte t.b, channelByte t.c, num t.settle.val] = _
      rw [← slotOf_eq, ← slotOf_eq, ← slotOf_eq]
  case capture =>
    cases s.captures.records[j]? with
    | none => rfl
    | some r =>
      have figures : r.lockBody.layout = body (some r.lockBody) := (body_eq (some r.lockBody)).symm
      refine r.page_bytes.trans ?_
      rw [figures]
      rfl
  case slot =>
    cases hs : s.fault.slots[k] with
    | empty cleanup => exact FaultMemory.slotBytes_empty hs
    | writing e mask serial b =>
      rw [held_eq (h := { entry := e, mask := mask, serial := serial.getD 0 }) (by rw [hs]; rfl), hs]
      rfl
    | valid h b =>
      rw [held_eq (by rw [hs]; rfl), hs]
      rfl
    | erasing h b =>
      rw [held_eq (by rw [hs]; rfl), hs]
      rfl
  case unused => rfl

end Sys2Proof.Machine
end

section
/-! SUPPORT. The Event Queue: an arrival taken (R156 to R159), POP EVENT and CLEAR LOSS (R160, R161), and ALERT_LEVEL (R164);
and what a step takes from the queue of commands. -/

namespace Sys2Proof.Machine

/-- Settles O1: the two forms that the queue of commands can have. -/
theorem stepTakesTheFrontCommand : Obligations.StepTakesTheFrontCommand := by
  refine ⟨fun c rest s front => ?front, fun s idle => ?idle⟩
  case front =>
    unfold step
    rw [front]
  case idle =>
    unfold step
    rw [idle]

/-! ### Arrivals (R156 to R159) -/

section
variable {q : EventQueue} {x : EventRecord}

/-- The class of a record that no other undercuts is the lowest held (R158). -/
theorem EventQueue.lowestClass_eq (hx : x ∈ q.records) (lowest : ∀ y ∈ q.records, x.cls ≤ y.cls) :
    q.lowestClass = x.cls.val := by
  obtain ⟨y, hy, attained⟩ := EventQueue.lowestClass_mem (List.ne_nil_of_mem hx)
  have below : x.cls.val ≤ y.cls.val := lowest y hy
  exact le_antisymm (EventQueue.lowestClass_le hx) (by omega)

/-- A class that no record held undercuts is not above the lowest of them (R158). -/
theorem EventQueue.not_lowestClass_lt {c : Fin 4} (held : q.records ≠ []) (h : ∀ y ∈ q.records, c ≤ y.cls) :
    ¬q.lowestClass < c.val := by
  obtain ⟨y, hy, attained⟩ := EventQueue.lowestClass_mem held
  have below : c.val ≤ y.cls.val := h y hy
  omega

/-- The record displaced is the newest of the lowest class: every record after it is of a higher one (R158). -/
theorem EventQueue.displace_of_newest {before after : List EventRecord} (split : q.records = before ++ x :: after)
    (lowest : ∀ y ∈ q.records, x.cls ≤ y.cls) (newest : ∀ y ∈ after, x.cls < y.cls) :
    q.displace = { q with records := before ++ after } := by
  have found : q.lowestClass = x.cls.val := EventQueue.lowestClass_eq (by simp [split]) lowest
  have passed (y : EventRecord) (hy : y ∈ after) : (y.cls.val == x.cls.val) = false := by
    have above : x.cls.val < y.cls.val := newest y hy
    exact beq_false_of_ne above.ne'
  unfold EventQueue.displace
  rw [found, split, eraseLast_eq (by simp) passed]

end

/-- Settles O47: with room, when full of classes at or above the arrival's, and when full with the lowest below it. -/
theorem arrivalsTaken : Obligations.ArrivalsTaken := by
  intro q r accepted more
  refine ⟨fun room => ?room, fun full low => ?discard, fun before x after full split above lowest newest => ?displace⟩
  case room =>
    rw [q.arrive_room r room]
    exact ⟨rfl, rfl, rfl, rfl, rfl⟩
  case discard =>
    have held : q.records ≠ [] := List.ne_nil_of_length_pos (by omega)
    exact q.arrive_discard r (by omega) (EventQueue.not_lowestClass_lt held low)
  case displace =>
    have found : q.lowestClass = x.cls.val := EventQueue.lowestClass_eq (by simp [split]) lowest
    rw [q.arrive_displace r (by omega) (found.trans_lt above), EventQueue.displace_of_newest split lowest newest]
    exact ⟨rfl, rfl, rfl, rfl, rfl⟩

/-! ### POP EVENT, CLEAR LOSS and ALERT_LEVEL (R160, R161, R164) -/

section
variable {s : State}

theorem popEventBody_empty (h : s.queue.records = []) : popEventBody s = s.refuse .queueEmpty := by
  unfold popEventBody
  rw [h]

theorem popEventBody_cons {r : EventRecord} {rest : List EventRecord} (h : s.queue.records = r :: rest) :
    popEventBody s = ⟨{ s with queue := { s.queue with records := rest }.updated }, .ok, byteOf r.seq 0⟩ := by
  unfold popEventBody
  rw [h]

/-- The low byte of a field is its low 8 bits (R160). -/
theorem byteOf_zero_eq_ofNat (x : Half) : byteOf x 0 = BitVec.ofNat 8 x.toNat := by
  apply BitVec.eq_of_toNat_eq
  simp [byteOf]

theorem writeAlertLevel_above {v : Byte} (h : 4 < v.toNat) : writeAlertLevel v s = s := by
  unfold writeAlertLevel
  rw [numberBelow_none h]

theorem writeAlertLevel_of {v : Byte} {level : Fin 5} (h : v.toNat = level.val) :
    writeAlertLevel v s = { s with queue := { s.queue with alertLevel := level }.updated } := by
  unfold writeAlertLevel
  rw [numberBelow_some h]

end

/-- Settles O48: POP EVENT by whether a record is held, and CLEAR LOSS on any queue. -/
theorem popEventAndClearLoss : Obligations.PopEventAndClearLoss := by
  refine ⟨fun s hs => ?pop, fun s hs => congrArg Host.Outcome.next (takeCommand_taken hs clearLossBody)⟩
  have taken : exec .popEvent s = .next (popEventBody s).answer :=
    congrArg Host.Outcome.next (takeCommand_taken hs popEventBody)
  rw [taken]
  refine ⟨fun empty => ?empty, fun r rest head => ?head⟩
  case empty =>
    rw [popEventBody_empty empty]
    rfl
  case head =>
    refine ⟨_, EventQueue.updated_alert { s.queue with records := rest }, ?_⟩
    rw [popEventBody_cons head, byteOf_zero_eq_ofNat]
    rfl

/-- Settles O49: the level by the value written, and ALERT_N as the queue brings it up to date. -/
theorem alertLevelWrites : Obligations.AlertLevelWrites := by
  intro s v hb
  have taken : exec (.alertLevelWrite v) s = .next (writeAlertLevel v s).acknowledged :=
    congrArg Host.Outcome.next (takeWrite_taken hb (writeAlertLevel v))
  rw [taken]
  refine ⟨fun above => ?above, fun level written => ?level⟩
  case above => rw [writeAlertLevel_above above]
  case level =>
    refine ⟨_, EventQueue.updated_alert { s.queue with alertLevel := level }, ?_⟩
    rw [writeAlertLevel_of written]
    rfl

end Sys2Proof.Machine
end

section
/-! SUPPORT. The Host Port's own steps: the bytes of a transfer (R167, R168, R170, R171), the bytes a read serves (R169, R170),
and the bytes written to registers without a row of their own (R168, R172, R173). -/

namespace Sys2Proof.Machine

section
variable {s : State}

/-! ### The bytes of a transfer (R167, R168, R170, R171) -/

theorem addressByte_own {v : Byte} (h : v.extractLsb' 1 7 = s.port.address) : addressByte v s = { s with
    port := { s.port with
      phase := if v.getLsbD 0 then .reading else .pointerNext, snapshot := none, acked := true } } := if_pos h

theorem addressByte_other {v : Byte} (h : v.extractLsb' 1 7 ≠ s.port.address) : addressByte v s = { s with
    port := { s.port with phase := .waiting, snapshot := none, acked := false } } := if_neg h

theorem pointerWrite_next (h : s.port.phase = .pointerNext) (v : Byte) : pointerWrite v s = { s with
    port := { s.port with phase := .writing, pointer := v, acked := true } } := if_pos h

theorem transferTimeout_joined (h : s.port.phase ≠ .waiting) : transferTimeout s = { s with
    port := { s.port with phase := .waiting, snapshot := none } } := if_neg h

end

/-- Settles O9: each byte and each end of a transfer by what the port finds, out of reset. -/
theorem transferFraming : Obligations.TransferFraming := by
  intro s v hs
  have acts (f : State → State) {t : State} (h : f s = t) :
      (.next (awake f s) : Host.Outcome State Fault Refusal) = .next t :=
    congrArg Host.Outcome.next ((awake_of hs f).trans h)
  exact ⟨fun own => acts _ (addressByte_own own), fun other => acts _ (addressByte_other other),
    fun first => acts _ (pointerWrite_next first v), acts transferEnd rfl,
    fun joined => acts _ (transferTimeout_joined joined)⟩

/-! ### The bytes that a read serves (R169, R170) -/

section
variable {s : State} (service ack : Bool)

/-- At the lowest byte of a field the field is captured (R170). -/
theorem serveByte_field {len : Nat} (hr : s.port.phase = .reading)
    (hf : s.port.fieldLength s.port.pointer.toNat = some len) : serveByte service ack s =
      s.byteServed (s.windowByte service s.port.pointer.toNat) (some (s.captureField service len)) ack := by
  unfold serveByte
  rw [if_pos hr, hf]

/-- Where no snapshot is open and no field begins, the byte is live (R170). -/
theorem serveByte_live (hr : s.port.phase = .reading) (hf : s.port.fieldLength s.port.pointer.toNat = none)
    (hx : s.port.snapshot = none) : serveByte service ack s =
      s.byteServed (s.windowByte service s.port.pointer.toNat) none ack := by
  unfold serveByte Port.snapshotByte
  rw [if_pos hr, hf, hx]

/-- A later byte of a field comes from the open snapshot, which closes after its last byte (R170). -/
theorem serveByte_later {x : Snapshot} {j : Nat} (hr : s.port.phase = .reading)
    (hf : s.port.fieldLength s.port.pointer.toNat = none) (hx : s.port.snapshot = some x) (hj : j < x.bytes.length)
    (pos : 0 < j) (small : j < 256) (place : s.port.pointer = x.base + BitVec.ofNat 8 j) : serveByte service ack s =
      s.byteServed x.bytes[j] (if j + 1 = x.bytes.length then none else some x) ack := by
  have past : (s.port.pointer - x.base).toNat = j := by
    rw [place, add_sub_cancel_left, BitVec.toNat_ofNat, Nat.mod_eq_of_lt small]
  have moved : s.port.pointer ≠ x.base := fun e => by
    rw [e, sub_self] at past
    exact pos.ne past
  have byte : s.port.snapshotByte = some x.bytes[j] := by
    unfold Port.snapshotByte
    rw [hx]
    dsimp only
    rw [if_neg moved, past, List.getElem?_eq_getElem hj]
  have last : s.port.atSnapshotEnd = decide (j + 1 = x.bytes.length) := by
    unfold Port.atSnapshotEnd
    rw [hx]
    dsimp only
    rw [past]
    rfl
  unfold serveByte
  rw [if_pos hr, hf, byte, last, hx]
  simp only [decide_eq_true_eq]

/-- At the lowest byte of a field the row of the snapshot is the service of that byte (R170). -/
theorem fieldSnapshot_field {len : Nat} (hf : s.port.fieldLength s.port.pointer.toNat = some len) :
    fieldSnapshot service ack s = serveByte service ack s := by
  unfold fieldSnapshot
  rw [hf]
  rfl

end

/-- Settles O10: the lowest byte of a field, a byte with no snapshot open, and a later byte of the field captured. -/
theorem servedBytes : Obligations.ServedBytes := by
  intro s service ack hs hr a served
  have field (len : Nat) (hf : s.port.fieldLength a = some len) := serveByte_field service ack hr hf
  refine ⟨fun len hf => ⟨s.captureField service len, rfl, rfl, ?snapshot, ?lowest⟩, fun hf hx => ?live,
    fun x j hj hf hx pos small place => ?later⟩
  case snapshot =>
    exact congrArg Host.Outcome.next ((awake_of hs _).trans ((fieldSnapshot_field service ack hf).trans (field len hf)))
  case lowest => exact congrArg Host.Outcome.next ((awake_of hs _).trans (field len hf))
  case live => exact congrArg Host.Outcome.next ((awake_of hs _).trans (serveByte_live service ack hr hf hx))
  case later =>
    exact congrArg Host.Outcome.next ((awake_of hs _).trans (serveByte_later service ack hr hf hx hj pos small place))

/-! ### Bytes written to registers (R168, R172, R173) -/

section
variable {s : State} {a : Byte}

/-- A data byte at a register without a row of its own is written there and acknowledged (R168, R173). -/
theorem registerWrite_at (h : s.byteTakenAt a) (own : hasOwnRow a.toNat = false) (v : Byte) :
    exec (.registerWrite v) s = .next (s.writeRegister a.toNat v).acknowledged := by
  obtain ⟨hs, hw, rfl⟩ := h
  refine congrArg Host.Outcome.next ((awake_of hs (registerWrite v)).trans (if_pos ⟨hw, ?_⟩))
  rw [own]
  rfl

/-- PART takes a byte up to 3 and ignores any other (R172). -/
theorem writeRegister_part (v : Byte) : s.writeRegister 0x1E v =
    if 3 < v.toNat then s else { s with port := { s.port with part := BitVec.ofNat 2 v.toNat } } := rfl

/-- The registers that no write reaches: they have no row of their own and stand on no page (R172, R173). -/
theorem writeRegister_ignored {n : Nat} (h : n ∉ [0x04, 0x05, 0x06, 0x07, 0x08, 0x0E, 0x1E]) (page : n < 0x40 ∨ 0x80 ≤ n)
    (v : Byte) : s.writeRegister n v = s := by
  simp only [List.mem_cons, List.not_mem_nil, or_false, not_or] at h
  obtain ⟨h4, h5, h6, h7, h8, hE, h1E⟩ := h
  unfold State.writeRegister
  simp only [h4, h5, h6, h7, h8, hE, h1E, if_false]
  exact if_neg (by omega)

/-- The addresses whose writes are ignored (R173, R176): the read-only registers, the head-event area, and all from 0x80. -/
def isReadOnly (a : Byte) : Prop :=
  a ∈ ([0x00, 0x01, 0x02, 0x03, 0x0A, 0x0B, 0x0C, 0x0F, 0x10, 0x14, 0x15, 0x16, 0x17, 0x18, 0x19, 0x1A, 0x1B, 0x1C, 0x1D,
    0x1F] : List Byte) ∨ (0x20 ≤ a.toNat ∧ a.toNat < 0x40) ∨ 0x80 ≤ a.toNat

theorem isReadOnly.toNat (h : isReadOnly a) : a.toNat ∉ [0x04, 0x05, 0x06, 0x07, 0x08, 0x0E, 0x1E] ∧
    (a.toNat < 0x40 ∨ 0x80 ≤ a.toNat) ∧ hasOwnRow a.toNat = false := by
  rcases h with listed | above
  · have numbers := List.mem_map_of_mem (f := BitVec.toNat) listed
    generalize a.toNat = n at numbers ⊢
    revert n
    decide
  · simp only [List.mem_cons, List.not_mem_nil, or_false, hasOwnRow, Bool.or_eq_false_iff, beq_eq_false_iff_ne]
    omega

end

/-- Settles O13: each writable register takes its byte, and every address of `isReadOnly` ignores it. -/
theorem globalRegisterWrites : Obligations.GlobalRegisterWrites := by
  intro s a v ha
  have written {t : State} (own : hasOwnRow a.toNat = false) (h : s.writeRegister a.toNat v = t) :
      exec (.registerWrite v) s = .next t.acknowledged := h ▸ registerWrite_at ha own v
  refine ⟨fun e => ?_, fun e => ?_, fun e => ?_, fun e => ?_, fun e => ?tag, fun e => ?_, fun e low => ?part,
    fun e high => ?above, fun ignored => ?ignored⟩
  case tag =>
    subst e
    have low : v.setWidth 4 = v.extractLsb' 0 4 := rfl
    rw [← low]
    exact written rfl rfl
  case part =>
    subst e
    exact written rfl ((writeRegister_part v).trans (if_neg (by omega)))
  case above =>
    subst e
    exact written rfl ((writeRegister_part v).trans (if_pos high))
  case ignored =>
    obtain ⟨unwritable, page, own⟩ := isReadOnly.toNat ignored
    exact written own (writeRegister_ignored unwritable page v)
  all_goals
    subst e
    exact written rfl rfl

end Sys2Proof.Machine
end

section
/-! SUPPORT. The global registers and the head-event area as the host reads them (R172, R175), and the fields of two or more
bytes below the pages (R170; log 15). -/

namespace Sys2Proof.Machine

/-! ### Bytes put together from flags and codes (R172, R175) -/

/-- STATUS, its low byte: five flags, and the code of the Sequencer in bits 7 to 5 (R172). -/
theorem State.statusLow_eq (s : State) (service : Bool) : s.statusLow service =
    BitVec.ofNat 8 ((if s.ready then 1 else 0) + (if service then 2 else 0) + (if s.scan.scanning then 4 else 0) +
      (if s.scan.pendingList.isSome then 8 else 0) + (if s.scan.pendingChannel.isSome then 16 else 0) +
      32 * s.seq.state.code.toNat) := by
  have code : s.seq.state.code ∈ ([0, 1, 2, 3, 4] : List Byte) := by
    cases s.seq.state <;> simp [SeqState.code]
  unfold State.statusLow
  generalize s.seq.state.code = code at *
  generalize s.ready = ready
  generalize s.scan.scanning = scanning
  generalize s.scan.pendingList.isSome = list
  generalize s.scan.pendingChannel.isSome = channel
  simp only [List.mem_cons, List.not_mem_nil, or_false] at code
  revert ready service scanning list channel
  rcases code with rfl | rfl | rfl | rfl | rfl <;> decide

/-- STATUS, its high byte: a number in each half (R172). -/
theorem State.statusHigh_eq (s : State) : s.statusHigh =
    BitVec.ofNat 8 (s.seq.state.index % 16 + 16 * (s.scan.stepIndex % 16)) := by
  apply BitVec.eq_of_toNat_eq
  unfold State.statusHigh
  rw [BitVec.toNat_append, ← Nat.shiftLeft_add_eq_or_of_lt (BitVec.isLt _), Nat.shiftLeft_eq]
  simp only [BitVec.toNat_ofNat]
  omega

/-- A number above a code, as LAST_OUTCOME has them: the code reads first (R172). -/
theorem fieldBytes_append (number code : Byte) : fieldBytes (number ++ code) 2 = [code, number] :=
  congrArg₂ (fun low high => [low, high]) BitVec.extractLsb'_append_eq_right BitVec.extractLsb'_append_eq_left

/-- The class of an event, with the loss flag in bit 7 (R175). -/
theorem classByte_eq (loss : Bool) (cls : Fin 4) :
    BitVec.ofBool loss ++ (0#5) ++ BitVec.ofNat 2 cls.val = BitVec.ofNat 8 (cls.val + if loss then 128 else 0) := by
  revert loss cls
  decide

/-! ### The areas of the window (R172, R175, R176) -/

section
variable (s : State) (service : Bool)

/-- The global registers in the order of R172. -/
theorem State.global_bytes : (List.range 0x20).map (s.windowByte service) =
    [0x16, 0x01] ++ [s.statusLow service, s.statusHigh] ++ [s.port.arg0, s.port.arg1, s.port.arg2, s.port.arg3,
      s.port.tag.zeroExtend 8, 0, s.port.result.code.code, s.port.result.tag.zeroExtend 8, s.port.result.detail,
      BitVec.ofNat 8 s.queue.alertLevel.val, s.port.page, BitVec.ofNat 8 s.queue.records.length, s.queue.lossCount,
      s.scan.mode.code] ++ fieldBytes s.scan.period 2 ++ fieldBytes s.scan.frameNumber 4 ++ fieldBytes s.timestamp 4 ++
      fieldBytes s.seq.outcome.bytes 2 ++ [s.port.part.zeroExtend 8, 0] := rfl

/-- An event record in the order of R175. -/
theorem EventRecord.area_bytes (r : EventRecord) : (List.range 0x20).map r.byte =
    fieldBytes r.seq 2 ++ fieldBytes r.timestamp 4 ++ [r.kind.code, (r.source.map (BitVec.ofNat 8)).getD 0xFF] ++
      fieldBytes r.detail 2 ++ [BitVec.ofNat 8 (r.cls.val + if r.lossBefore then 128 else 0)] ++ zeroBytes 21 := by
  rw [← classByte_eq]
  rfl

/-- The head-event area shows the record at the head, and 0 with an empty queue (R175). -/
theorem State.windowByte_head {j : Nat} (h : j < 0x20) :
    s.windowByte service (0x20 + j) = s.queue.records.head?.elim 0 (·.byte j) := by
  unfold State.windowByte
  simp (disch := omega) only [if_neg, if_pos, Nat.add_sub_cancel_left]
  cases s.queue.records <;> rfl

theorem State.windowByte_page {j : Nat} (h : j < 0x40) :
    s.windowByte service (0x40 + j) = s.pageByte s.port.page.toNat s.port.part.toNat j := by
  unfold State.windowByte
  simp (disch := omega) only [if_neg, if_pos, Nat.add_sub_cancel_left]

theorem State.windowByte_above {a : Nat} (h : 0x80 ≤ a) : s.windowByte service a = 0 := by
  unfold State.windowByte
  simp (disch := omega) only [if_neg]

end

/-! ### The fields below the pages, and above them (R170; log 15) -/

section
variable (p : Port) {a : Nat}

/-- The fields of the global registers and of the head-event area, each with its lowest byte and its length (R172, R175). -/
def globalFields : List (Nat × Nat) :=
  [(0x02, 2), (0x04, 4), (0x0A, 3), (0x12, 2), (0x14, 4), (0x18, 4), (0x1C, 2), (0x20, 32)]

theorem Port.fieldLength_global (h : a < 0x40) : p.fieldLength a = globalFields.lookup a := by
  unfold Port.fieldLength
  rw [if_neg (c := 0x40 ≤ a ∧ a < 0x80) (by omega)]
  revert a
  decide

theorem Port.fieldLength_above (h : 0x80 ≤ a) : p.fieldLength a = none := by
  unfold Port.fieldLength
  simp (disch := omega) only [if_neg]

end

/-- Settles O11: the globals and the head-event area in the order of their layouts, the page area, and the fields. -/
theorem windowBytes : Obligations.WindowBytes := by
  intro s service le2 le4 num bit sequencer status mode outcome
  have sequencer_eq : sequencer = (s.seq.state.code.toNat, s.seq.state.index) := by
    simp only [sequencer]
    cases s.seq.state <;> rfl
  have status_eq : status = [s.statusLow service, s.statusHigh] := by
    simp only [status]
    rw [sequencer_eq, s.statusLow_eq, s.statusHigh_eq]
  have mode_eq : mode = s.scan.mode.code := by
    simp only [mode]
    cases s.scan.mode <;> rfl
  have outcome_eq : outcome = fieldBytes s.seq.outcome.bytes 2 := by
    simp only [outcome]
    cases s.seq.outcome with
    | none | upDone | downHost => rfl
    | abortEntry n | abortRamp n | abortTimeout n => exact (fieldBytes_append _ _).symm
  refine ⟨?globals, ?head, fun j => s.windowByte_page service,
    fun a h => ⟨s.windowByte_above service h, s.port.fieldLength_above h⟩, fun a => s.port.fieldLength_global, rfl⟩
  case globals =>
    rw [s.global_bytes, status_eq, mode_eq, outcome_eq]
    simp only [num, BitVec.ofNat_toNat]
    rfl
  case head =>
    have shown : (List.range 0x20).map (fun j => s.windowByte service (0x20 + j)) =
        (List.range 0x20).map fun j => s.queue.records.head?.elim 0 (·.byte j) :=
      List.map_congr_left fun j hj => s.windowByte_head service (List.mem_range.1 hj)
    rw [shown]
    cases s.queue.records with
    | nil => rfl
    | cons r rest => exact r.area_bytes

end Sys2Proof.Machine
end

section
/-! SUPPORT. The host commands by their codes (R174, R184): the body that each runs, what a body may answer, and what a part
not ready refuses or ignores. -/

namespace Sys2Proof.Machine

/-! ### The command of a code byte (R174) -/

/-- The sixteen command codes, in the order of R174. -/
def commandCodes : List Byte :=
  [0x10, 0x11, 0x12, 0x13, 0x20, 0x21, 0x30, 0x31, 0x40, 0x41, 0x42, 0x50, 0x60, 0x70, 0x71, 0xA5]

theorem isCommandCode_of_not_mem {code : Byte} (h : code ∉ commandCodes) : isCommandCode code = false := by
  have unlisted {n : Nat} (hn : code.toNat = n) : BitVec.ofNat 8 n ∉ commandCodes := by
    rwa [← hn, BitVec.ofNat_toNat, BitVec.setWidth_eq]
  unfold isCommandCode commandOfCode
  split
  case h_17 => simp
  all_goals
    rename_i hn
    exact absurd (by decide) (unlisted hn)

/-- The body that a step of COMMAND code runs; the other steps of the table have none. -/
def commandBody : Instr → Option (State → Reply)
  | .scanNow => some scanNowBody
  | .loadScanList => some loadScanListBody
  | .loadChannel => some loadChannelBody
  | .clearMinmax => some clearMinmaxBody
  | .loadEntry => some loadEntryBody
  | .release => some releaseBody
  | .loadSwitch => some loadSwitchBody
  | .restartSwitch => some restartSwitchBody
  | .loadSequence => some loadSequenceBody
  | .powerUp => some powerUpBody
  | .powerDown => some powerDownBody
  | .dropCaptures => some dropCapturesBody
  | .clearLock service => some (clearLockBody service)
  | .popEvent => some popEventBody
  | .clearLoss => some clearLossBody
  | .softReset => some softResetBody
  | .badCommand code => some (badCommandBody code)
  | _ => none

section
variable {c : Instr} {body : State → Reply}

/-- A well-formed step of COMMAND code, taken there, runs its body and shows the answer (R168, R174). -/
theorem exec_commandBody (h : commandBody c = some body) (wf : c.wellFormed = true) {s : State} (hs : s.commandTaken) :
    exec c s = .next (body s).answer := by
  have taken : exec c s = .next (takeCommand body s) := by
    cases c <;> cases h
    case badCommand code => exact congrArg Host.Outcome.next (if_neg (by simpa [Instr.wellFormed] using wf))
    all_goals rfl
  rw [taken, takeCommand_taken hs]
  rfl

end

/-- Every byte is the code of a well-formed step of COMMAND code, BAD_COMMAND where it is none of the sixteen (R174). -/
theorem commandOfCode_wellFormed (service : Bool) (code : Byte) : (commandOfCode service code).wellFormed = true ∧
    (commandBody (commandOfCode service code)).isSome = true := by
  by_cases listed : code ∈ commandCodes
  · have all : (commandCodes.all fun code => (commandOfCode service code).wellFormed &&
        (commandBody (commandOfCode service code)).isSome) = true := by cases service <;> rfl
    simpa using List.all_eq_true.1 all code listed
  · have unlisted := isCommandCode_of_not_mem listed
    rw [commandOfCode_badCommand unlisted]
    exact ⟨by simp [Instr.wellFormed, unlisted], rfl⟩

/-- A byte taken at COMMAND code has a body, which is run, and its answer shown (R168, R174). -/
theorem exec_commandOfCode (service : Bool) (code : Byte) : ∃ body, commandBody (commandOfCode service code) = some body ∧
    ∀ s : State, s.commandTaken → exec (commandOfCode service code) s = .next (body s).answer := by
  obtain ⟨wf, named⟩ := commandOfCode_wellFormed service code
  obtain ⟨body, hbody⟩ := Option.isSome_iff_exists.1 named
  exact ⟨body, hbody, fun s => exec_commandBody hbody wf⟩

/-! ### What a body answers (R174, R184) -/

/-- A command is accepted with OK or with ACCEPTED, whatever its work is, or it is refused. -/
inductive Reply.Answers (s : State) : Reply → Prop
  | ok (t : State) (detail : Byte) : Answers s ⟨t, .ok, detail⟩
  | accepted (t : State) (detail : Byte) : Answers s ⟨t, .accepted, detail⟩
  | refused (code : ResultCode) (detail : Byte) : Answers s (s.refuse code detail)

/-- A reply with neither OK nor ACCEPTED leaves the state as it was (R174). -/
theorem Reply.Answers.state_eq {s : State} {r : Reply} (h : r.Answers s) (hok : r.code ≠ .ok)
    (haccepted : r.code ≠ .accepted) : r.state = s := by
  cases h with
  | ok => exact absurd rfl hok
  | accepted => exact absurd rfl haccepted
  | refused => rfl

section
variable {c : Instr} {body : State → Reply}

/-- Every branch of every body is an acceptance or a refusal (R174). -/
theorem commandBody_answers (h : commandBody c = some body) (s : State) : (body s).Answers s := by
  cases c <;> cases h
  all_goals
    dsimp only [scanNowBody, loadScanListBody, loadChannelBody, clearMinmaxBody, loadEntryBody, releaseBody, loadSwitchBody,
      restartSwitchBody, loadSequenceBody, powerUpBody, powerDownBody, dropCapturesBody, clearLockBody, popEventBody,
      clearLossBody, softResetBody, badCommandBody]
    repeat' split
  all_goals constructor

/-- The commands that need a ready part: the sixteen but POP EVENT and CLEAR LOSS (R184). -/
def needsReady : Instr → Bool
  | .popEvent | .clearLoss | .badCommand _ => false
  | c => (commandBody c).isSome

/-- The first check of such a command is that the part is ready (R184). -/
theorem commandBody_notReady (h : commandBody c = some body) (hc : needsReady c = true) {s : State}
    (hr : s.ready = false) : body s = s.refuse .notReady := by
  have check : (!s.ready) = true := by simp [hr]
  cases c <;> cases h <;> cases hc
  all_goals exact if_pos check

end

theorem needsReady_of_listed (service : Bool) {code : Byte} (listed : code ∈ commandCodes) (pop : code ≠ 0x70)
    (loss : code ≠ 0x71) : needsReady (commandOfCode service code) = true := by
  have all : (commandCodes.all fun code => code == 0x70 || code == 0x71 || needsReady (commandOfCode service code)) = true := by
    cases service <;> rfl
  simpa only [Bool.or_eq_true, beq_iff_eq, pop, loss, false_or] using List.all_eq_true.1 all code listed

section
variable {s : State}

/-! Until the part is ready the writes to SCAN_MODE and FRAME_PERIOD have no effect (R184). -/

theorem writeScanMode_notReady (hr : s.ready = false) (v : Byte) : writeScanMode v s = s := by
  unfold writeScanMode
  split
  · rfl
  · exact if_pos (by simp [hr])

theorem writePeriodLow_notReady (hr : s.ready = false) (v : Byte) : writePeriodLow v s = s := if_neg (by simp [hr])

theorem writePeriodHigh_notReady (hr : s.ready = false) (v : Byte) : writePeriodHigh v s = s := if_neg (by simp [hr])

end

/-- Settles O16: each clause by the body of the command that a byte is the code of. -/
theorem commandCodesAndRefusals : Obligations.CommandCodesAndRefusals := by
  unfold Obligations.CommandCodesAndRefusals
  intro codes
  have ignored {a : Byte} {f : State → State} {s : State} (hb : s.byteTakenAt a) (same : f s = s) :
      (.next (takeWrite a f s) : Host.Outcome State Fault Refusal) = .next s.acknowledged :=
    congrArg Host.Outcome.next ((takeWrite_taken hb f).trans (congrArg State.acknowledged same))
  refine ⟨fun service => rfl, fun s service code hs unlisted => ?bad, fun s t service code hs ht hok hacc => ?refused,
    fun s service code v hr => ⟨fun hs listed pop loss => ?notReady, fun hb => ?mode, fun hb => ?low, fun hb => ?high⟩, rfl⟩
  case bad =>
    have named := commandOfCode_badCommand (isCommandCode_of_not_mem unlisted) service
    refine ⟨named, exec_commandBody (body := badCommandBody code) rfl ?_ hs⟩
    rw [← named]
    exact (commandOfCode_wellFormed service code).1
  case refused =>
    obtain ⟨body, hbody, taken⟩ := exec_commandOfCode service code
    rw [taken s hs] at ht
    cases ht
    have kept : (body s).state = s := (commandBody_answers hbody s).state_eq hok hacc
    exact congrArg (fun u : State => u.answered (body s).code (body s).detail) kept
  case notReady =>
    obtain ⟨body, hbody, taken⟩ := exec_commandOfCode service code
    rw [taken s hs, commandBody_notReady hbody (needsReady_of_listed service listed pop loss) hr]
    rfl
  case mode => exact ignored hb (writeScanMode_notReady hr v)
  case low => exact ignored hb (writePeriodLow_notReady hr v)
  case high => exact ignored hb (writePeriodHigh_notReady hr v)

end Sys2Proof.Machine
end

section
/-! SUPPORT. Every step completes, and leaves the commands that wait as they are (R174, spec/95). The steps that `Keeps` covers
say so there; what follows is said of the others. -/

namespace Sys2Proof.Machine

/-! ### What a step leaves waiting -/

/-- A fold of operations that each leave the waiting commands leaves them. -/
theorem foldl_pending {α : Type} {f : State → α → State} (h : ∀ s x, (f s x).pending = s.pending) (l : List α) (s : State) :
    (l.foldl f s).pending = s.pending := by
  induction l generalizing s with
  | nil => rfl
  | cons a l ih => exact (ih _).trans (h s a)

theorem takeCommand_pending {s : State} {body : State → Reply} (h : (body s).state.pending = s.pending) :
    (takeCommand body s).pending = s.pending := by
  unfold takeCommand
  split
  · exact h
  · rfl

theorem awake_pending {s : State} {f : State → State} (h : (f s).pending = s.pending) : (awake f s).pending = s.pending := by
  unfold awake
  split
  · rfl
  · exact h

/-! ### Loads of a block, and SOFT RESET (R53, R74, R186) -/

theorem loadSwitchBody_pending (s : State) : (loadSwitchBody s).state.pending = s.pending := by
  unfold loadSwitchBody
  repeat' split
  case h_2.isFalse.isFalse.isFalse => exact (State.loadIndicator_keeps _ _).pending
  all_goals rfl

theorem loadSequenceBody_pending (s : State) : (loadSequenceBody s).state.pending = s.pending := by
  unfold loadSequenceBody
  repeat' split
  all_goals rfl

theorem State.softReset_pending (s : State) : s.softReset.pending = s.pending := by
  have dropped : ((List.finRange 32).foldl State.dropHolder s).pending = s.pending :=
    foldl_pending (fun t n => by rw [t.dropHolder_frame n]) _ s
  unfold State.softReset
  generalize (List.finRange 32).foldl State.dropHolder s = s1 at *
  have indicators := foldl_pending (f := fun t i => t.setIndicator i false) fun t i => (t.setIndicator_keeps i false).pending
  rw [State.clearQueue_pending, State.modFault_pending]
  dsimp only
  rw [indicators]
  exact dropped

theorem softResetBody_pending (s : State) : (softResetBody s).state.pending = s.pending := by
  unfold softResetBody
  split
  · rfl
  split
  case h_5 => exact s.softReset_pending
  all_goals rfl

/-! ### Stored locks, the end of reset and the restore (R141, R142, R148, R182, R183) -/

theorem programComplete_pending (s : State) : (programComplete s).pending = s.pending := by
  unfold programComplete
  repeat' split
  all_goals rfl

theorem eraseComplete_pending (s : State) : (eraseComplete s).pending = s.pending := by
  unfold eraseComplete
  split
  case h_1 =>
    split
    case h_1 => exact (State.announceClear_keeps _ _ _ _ _).pending
    all_goals rfl
  all_goals rfl

theorem resetEnd_pending (addr1 addr0 tripLow : Bool) (s : State) : (resetEnd addr1 addr0 tripLow s).pending = s.pending := by
  unfold resetEnd
  split <;> rfl

theorem State.settleSlot_pending (s : State) (k : Fin 4) : (s.settleSlot k).pending = s.pending := by
  unfold State.settleSlot
  dsimp only
  split <;> rfl

theorem restoreSlotSettled_pending (s : State) : (restoreSlotSettled s).pending = s.pending := by
  unfold restoreSlotSettled
  split
  · rfl
  split
  · exact s.settleSlot_pending _
  · rfl

theorem restoreComplete_pending (s : State) : (restoreComplete s).pending = s.pending := by
  unfold restoreComplete
  split
  · rfl
  · exact foldl_pending State.settleSlot_pending _ s

/-! ### Every step -/

/-- The steps that do more than messages between blocks do. -/
theorem exec_deep_pending {c : Instr} {s t : State} (hd : isDeep c = true) (h : exec c s = .next t) :
    t.pending = s.pending := by
  cases c <;> cases hd <;> cases h
  case loadSwitch => exact takeCommand_pending (loadSwitchBody_pending s)
  case loadSequence => exact takeCommand_pending (loadSequenceBody_pending s)
  case softReset => exact takeCommand_pending (softResetBody_pending s)
  case powerOnReset | pinReset => rfl
  case resetEnd a b low => exact resetEnd_pending a b low s
  case restoreSlotSettled => exact awake_pending (restoreSlotSettled_pending s)
  case restoreComplete => exact awake_pending (restoreComplete_pending s)
  case programComplete => exact awake_pending (programComplete_pending s)
  case eraseComplete => exact awake_pending (eraseComplete_pending s)

theorem exec_pending {c : Instr} {s t : State} (h : exec c s = .next t) : t.pending = s.pending := by
  cases hd : isDeep c with
  | false => exact (exec_keeps hd h).pending
  | true => exact exec_deep_pending hd h

/-- No arm of the table answers a fault or a refusal (R174). -/
theorem exec_next (c : Instr) (s : State) : ∃ t, exec c s = .next t := by
  cases c <;> exact ⟨_, rfl⟩

/-- Settles O2: a step answers a next state by `exec_next`, and leaves the queue by `exec_pending`. -/
theorem everyCommandCompletes : Obligations.EveryCommandCompletes := by
  intro c s
  obtain ⟨t, taken⟩ := exec_next c s
  exact ⟨t, taken, exec_pending taken⟩

end Sys2Proof.Machine
end

section
/-! SUPPORT. Reset asserted, held and ended (R69, R167, R182): the value that each volatile state takes, the steps that then
do nothing, and what the end of reset samples. -/

namespace Sys2Proof.Machine

/-! ### Reset asserted (R70, R111, R182) -/

/-- The channel records after power-on and pin reset: C16 measures temperature, the others voltage (R111). -/
theorem ScanUnit.default_channels : ScanUnit.default.channels = Vector.ofFn fun ch =>
    { ChannelConfig.voltage with kind := if ch = 16 then .temperature else .voltage } := by
  ext ch hch : 1
  by_cases temperature : ch = 16
  · subst temperature
    rfl
  · have other : (⟨ch, hch⟩ : Fin 18) ≠ 16 := fun h => temperature (congrArg Fin.val h)
    simp only [ScanUnit.default, Vector.getElem_ofFn, if_neg other]
    rw [Vector.getElem_set_ne _ _ (Ne.symm temperature), Vector.getElem_replicate]
    rfl

/-- In reset every switch is OFF, and no gate is energised (R70, R182). -/
theorem State.assertReset_gate (s : State) (i : Fin 8) : s.assertReset.gate i = false := by
  rw [State.gate, s.assertReset_switch]
  rfl

/-- Settles O4: both resets are `State.assertReset`, whose blocks are the defaults written out; the channels alone are written
otherwise than their default is. -/
theorem resetAssertion : Obligations.ResetAssertion := by
  intro s
  refine ⟨rfl, s.assertReset, rfl, s.assertReset_gate, ?_⟩
  exact congrArg (fun channels => { s.assertReset with scan := { ScanUnit.default with channels := channels } })
    ScanUnit.default_channels

/-! ### Reset held (R182) -/

section
variable {c : Instr} {s : State}

theorem takeCommand_inReset (h : s.inReset = true) (body : State → Reply) : takeCommand body s = s := by
  refine takeCommand_not ?_ body
  rintro ⟨released, _⟩
  exact absurd h (by simp [released])

theorem takeWrite_inReset (h : s.inReset = true) (a : Byte) (f : State → State) : takeWrite a f s = s := by
  refine takeWrite_not ?_ f
  rintro ⟨released, _⟩
  exact absurd h (by simp [released])

/-- In reset no command is taken, whatever its body (R174, R182). -/
theorem exec_commandBody_inReset {body : State → Reply} (hb : commandBody c = some body) (h : s.inReset = true) :
    exec c s = .next s := by
  cases c <;> cases hb
  case badCommand code =>
    refine congrArg Host.Outcome.next ?_
    split
    · rfl
    · exact takeCommand_inReset h (badCommandBody code)
  all_goals exact congrArg Host.Outcome.next (takeCommand_inReset h _)

/-- In reset a step that is neither a reset nor its end does nothing: a command or a register write is not taken, and every
other step waits for its block to be awake (R182). -/
theorem exec_inReset (h : s.inReset = true) (hpower : c ≠ .powerOnReset) (hpin : c ≠ .pinReset)
    (hend : ∀ addr1 addr0 low, c ≠ .resetEnd addr1 addr0 low) : exec c s = .next s := by
  cases hb : commandBody c
  case some body => exact exec_commandBody_inReset hb h
  case none =>
    cases c <;> cases hb
    case powerOnReset => exact absurd rfl hpower
    case pinReset => exact absurd rfl hpin
    case resetEnd addr1 addr0 low => exact absurd rfl (hend addr1 addr0 low)
    case alertLevelWrite | scanModeWrite | framePeriodLowWrite | framePeriodHighWrite =>
      exact congrArg Host.Outcome.next (takeWrite_inReset h _ _)
    all_goals exact congrArg Host.Outcome.next (awake_inReset h _)

end

/-! ### The end of reset (R69, R167, R182) -/

/-- The concatenated address bits count ADDR1 as 2 and ADDR0 as 1 (R167). -/
theorem pinAddress_eq (addr1 addr0 : Bool) :
    pinAddress addr1 addr0 = 0x58 + (if addr1 then 2 else 0) + (if addr0 then 1 else 0) := by
  cases addr1 <;> cases addr0 <;> rfl

theorem resetEnd_inReset {s : State} (h : s.inReset = true) (addr1 addr0 low : Bool) : resetEnd addr1 addr0 low s = { s with
    inReset := false
    port := { s.port with address := pinAddress addr1 addr0 }
    trip := { s.trip with lowAtResetEnd := low }
    fault := { s.fault with restore := some 0 } } := if_pos h

/-- A part that is not held in reset has no reset to end (log 11). -/
theorem resetEnd_notInReset {s : State} (h : s.inReset = false) (addr1 addr0 low : Bool) : resetEnd addr1 addr0 low s = s :=
  if_neg (by simp [h])

/-- Settles O6: what reset holds by `exec_inReset`, and its end by whether the part is in reset. -/
theorem resetHoldsAndEnds : Obligations.ResetHoldsAndEnds := by
  refine ⟨fun c s => exec_inReset, fun s addr1 addr0 low => ⟨fun held => ?_, fun released => ?_⟩⟩
  · rw [← pinAddress_eq]
    exact congrArg Host.Outcome.next (resetEnd_inReset held addr1 addr0 low)
  · exact congrArg Host.Outcome.next (resetEnd_notInReset released addr1 addr0 low)

end Sys2Proof.Machine
end
